-- ==== Sys2Proof/Word.lean ====
section
/-! DEFINITION. The word types of the controller (00_scope R8, R10; 30_encoding R70, R71, R81).
Every quantity is unsigned; bit 0 is the least significant bit. -/

namespace Sys2Proof

/-- One byte: every shared register, wire word and data field (R8, R52). -/
abbrev Byte := BitVec 8

/-- A host command word `CMD[11:0]` (R70). -/
abbrev CmdWord := BitVec 12

/-- A response word `RSP[9:0]` (R71). -/
abbrev RspWord := BitVec 10

/-- The operation code `CMD[11:8]` (R70, R73). -/
abbrev Opc := BitVec 4

/-- The value of `PHASE`: 3 bits, of which 0..6 are legal (R26, R28). -/
abbrev PhaseVal := BitVec 3

/-- A digit position 0..4, an index of the segment file (R23, R24). -/
abbrev Digit := Fin 5

end Sys2Proof
end

