-- ==== Sys2Proof/Syntax.lean ====
section
/-! DEFINITION. The operations of the controller: one constructor per row of spec/opcode_table.json.
A host command carries its DATA byte even where the operation ignores it, so that no bit of a word is
lost; a sequencer action carries the received byte `rx`, its operand by R120 and R123 to R129. -/

namespace Sys2Proof

/-- The 13 `CMD12` rows and the 8 `SEQ` rows of the opcode table. -/
inductive Instr where
  /-- START, OPC 0x1; `x` is ignored (R152, R153). -/
  | start (x : Byte)
  /-- WR_LED d, OPC 0x2 (R181). -/
  | wrLed (d : Byte)
  /-- RD_BTN, OPC 0x3; `x` is ignored (R184). -/
  | rdBtn (x : Byte)
  /-- WR_SEG 0, d, OPC 0x8 (R182). -/
  | wrSeg0 (d : Byte)
  /-- WR_SEG 1, d, OPC 0x9 (R182). -/
  | wrSeg1 (d : Byte)
  /-- WR_SEG 2, d, OPC 0xA (R182). -/
  | wrSeg2 (d : Byte)
  /-- WR_SEG 3, d, OPC 0xB (R182). -/
  | wrSeg3 (d : Byte)
  /-- WR_SEG 4, d, OPC 0xC (R182). -/
  | wrSeg4 (d : Byte)
  /-- WR_SEG with the invalid digit 5, OPC 0xD (R183). -/
  | wrSegBad5 (d : Byte)
  /-- WR_SEG with the invalid digit 6, OPC 0xE (R183). -/
  | wrSegBad6 (d : Byte)
  /-- WR_SEG with the invalid digit 7, OPC 0xF (R183). -/
  | wrSegBad7 (d : Byte)
  /-- The reserved opcode 0x0 (R185). -/
  | reserved0 (d : Byte)
  /-- The reserved opcodes 0x4..0x7, `opc` being which (R185). -/
  | reserved4to7 (opc : Opc) (d : Byte)
  /-- PH0, selected by PHASE = 0 (R123). -/
  | ph0 (rx : Byte)
  /-- PH1, selected by PHASE = 1 (R124). -/
  | ph1 (rx : Byte)
  /-- PH2, selected by PHASE = 2 (R125). -/
  | ph2 (rx : Byte)
  /-- PH3, selected by PHASE = 3 (R126). -/
  | ph3 (rx : Byte)
  /-- PH4, selected by PHASE = 4 (R127). -/
  | ph4 (rx : Byte)
  /-- PH5, selected by PHASE = 5 (R128). -/
  | ph5 (rx : Byte)
  /-- PH6, selected by PHASE = 6 (R129). -/
  | ph6 (rx : Byte)
  /-- PH7, the PHASE value no rule can produce (R130). -/
  | ph7 (rx : Byte)
  deriving DecidableEq, Repr

end Sys2Proof
end

