-- ==== Sys2Proof/WellFormed.lean ====
section
/-! DEFINITION. Which terms of `Instr` stand for an operation the controller can be given.
Operand widths are in the types; the one check left is that the reserved opcode of the row
RESERVED(OPC 0x4..0x7) lies in that range (30_encoding R73). -/

namespace Sys2Proof

/-- `opc` is one of the reserved opcodes 0x4, 0x5, 0x6, 0x7 (R73). -/
def isReserved4to7 (opc : Opc) : Bool :=
  opc == 0x4 || opc == 0x5 || opc == 0x6 || opc == 0x7

/-- The well-formedness check of an instruction. -/
def Instr.wellFormed : Instr → Bool
  | .start _ => true
  | .wrLed _ => true
  | .rdBtn _ => true
  | .wrSeg0 _ => true
  | .wrSeg1 _ => true
  | .wrSeg2 _ => true
  | .wrSeg3 _ => true
  | .wrSeg4 _ => true
  | .wrSegBad5 _ => true
  | .wrSegBad6 _ => true
  | .wrSegBad7 _ => true
  | .reserved0 _ => true
  | .reserved4to7 opc _ => isReserved4to7 opc
  | .ph0 _ => true
  | .ph1 _ => true
  | .ph2 _ => true
  | .ph3 _ => true
  | .ph4 _ => true
  | .ph5 _ => true
  | .ph6 _ => true
  | .ph7 _ => true

/-- The 13 host commands, as opposed to the sequencer's actions (30_encoding, the two formats of the
opcode table; R82: "Sequencer actions PH0 to PH6 are not host commands"). -/
def Instr.isHostCommand : Instr → Bool
  | .start _ => true
  | .wrLed _ => true
  | .rdBtn _ => true
  | .wrSeg0 _ => true
  | .wrSeg1 _ => true
  | .wrSeg2 _ => true
  | .wrSeg3 _ => true
  | .wrSeg4 _ => true
  | .wrSegBad5 _ => true
  | .wrSegBad6 _ => true
  | .wrSegBad7 _ => true
  | .reserved0 _ => true
  | .reserved4to7 _ _ => true
  | .ph0 _ => false
  | .ph1 _ => false
  | .ph2 _ => false
  | .ph3 _ => false
  | .ph4 _ => false
  | .ph5 _ => false
  | .ph6 _ => false
  | .ph7 _ => false

end Sys2Proof
end

