-- ==== Sys2Proof/Decode.lean ====
section
/-! DEFINITION. Decoding and encoding (30_encoding). A host command is selected by its 12-bit word
(R70, R74); a sequencer action by the 3-bit value of PHASE, with the received byte as operand (R81). -/

namespace Sys2Proof

/-- What selects an operation: a command word, or PHASE with the byte just received. -/
inductive Selector where
  | cmd (w : CmdWord)
  | seq (phase : PhaseVal) (rx : Byte)
  deriving DecidableEq, Repr

/-- The two formats of the opcode table. -/
inductive Format where
  | cmd12
  | seq
  deriving DecidableEq, Repr

/-- Why a numeral is no encoding of a format: by name. -/
inductive DecodeError where
  /-- A number of more than 12 bits is no command word (R70). -/
  | notACommandWord
  /-- A number of more than 3 bits is no value of PHASE (R81). -/
  | notAPhase
  deriving DecidableEq, Repr

/-- The field OPC, `CMD[11:8]` (R70). -/
def opcOf (w : CmdWord) : Opc := w.extractLsb' 8 4

/-- The field DATA, `CMD[7:0]` (R70). -/
def dataOf (w : CmdWord) : Byte := w.extractLsb' 0 8

/-- The digit index `k = OPC[2:0]` of a `WR_SEG` (R72). -/
def digitOf (opc : Opc) : BitVec 3 := opc.extractLsb' 0 3

/-- `WR_SEG` with the digit index `k`: the rows of OPC 0x8 to 0xF (R73, R74). -/
def decodeWrSeg (k : BitVec 3) (d : Byte) : Instr :=
  if k = 0 then .wrSeg0 d
  else if k = 1 then .wrSeg1 d
  else if k = 2 then .wrSeg2 d
  else if k = 3 then .wrSeg3 d
  else if k = 4 then .wrSeg4 d
  else if k = 5 then .wrSegBad5 d
  else if k = 6 then .wrSegBad6 d
  else .wrSegBad7 d

/-- Decoding of a command word: the function of R74, total on all 4096 words. -/
def decodeCmd (w : CmdWord) : Instr :=
  if (opcOf w).getLsbD 3 then decodeWrSeg (digitOf (opcOf w)) (dataOf w)
  else if opcOf w = 0x1 then .start (dataOf w)
  else if opcOf w = 0x2 then .wrLed (dataOf w)
  else if opcOf w = 0x3 then .rdBtn (dataOf w)
  else if opcOf w = 0x0 then .reserved0 (dataOf w)
  else .reserved4to7 (opcOf w) (dataOf w)

/-- The action PHASE selects (R81, R130). -/
def decodePhase (p : PhaseVal) (rx : Byte) : Instr :=
  if p = 0 then .ph0 rx
  else if p = 1 then .ph1 rx
  else if p = 2 then .ph2 rx
  else if p = 3 then .ph3 rx
  else if p = 4 then .ph4 rx
  else if p = 5 then .ph5 rx
  else if p = 6 then .ph6 rx
  else .ph7 rx

/-- Decoding, total. -/
def decode : Selector → Instr
  | .cmd w => decodeCmd w
  | .seq p rx => decodePhase p rx

/-- A numeral as a selector of the format, or the name of what is wrong with it. The received byte of
a sequencer action is no part of its encoding and is 0 here (log 7). -/
def selectorOfNat (f : Format) (n : Nat) : Except DecodeError Selector :=
  match f with
  | .cmd12 => if n < 4096 then .ok (.cmd (BitVec.ofNat 12 n)) else .error .notACommandWord
  | .seq => if n < 8 then .ok (.seq (BitVec.ofNat 3 n) 0) else .error .notAPhase

/-- The format of an opcode-table row, from the bits the table gives it in whole bytes: a `SEQ` row
has 3 bits, one byte; a `CMD12` row has 12 bits, two bytes (log 7). -/
def formatOfBits (nbits : Nat) : Format :=
  if nbits ≤ 8 then .seq else .cmd12

/-- The instruction the decoder reads from an opcode-table row's bits. -/
def decodeTableWord (nbits w : Nat) : Option Instr :=
  match selectorOfNat (formatOfBits nbits) w with
  | .ok x => some (decode x)
  | .error _ => none

/-- The command word `OPC ++ DATA` (R70, R82). -/
def cmdWord (opc : Opc) (d : Byte) : CmdWord := opc ++ d

/-- The selector of an instruction, from the encoding tables (R73, R81). -/
def encode : Instr → Selector
  | .start x => .cmd (cmdWord 0x1 x)
  | .wrLed d => .cmd (cmdWord 0x2 d)
  | .rdBtn x => .cmd (cmdWord 0x3 x)
  | .wrSeg0 d => .cmd (cmdWord 0x8 d)
  | .wrSeg1 d => .cmd (cmdWord 0x9 d)
  | .wrSeg2 d => .cmd (cmdWord 0xA d)
  | .wrSeg3 d => .cmd (cmdWord 0xB d)
  | .wrSeg4 d => .cmd (cmdWord 0xC d)
  | .wrSegBad5 d => .cmd (cmdWord 0xD d)
  | .wrSegBad6 d => .cmd (cmdWord 0xE d)
  | .wrSegBad7 d => .cmd (cmdWord 0xF d)
  | .reserved0 d => .cmd (cmdWord 0x0 d)
  | .reserved4to7 opc d => .cmd (cmdWord opc d)
  | .ph0 rx => .seq 0 rx
  | .ph1 rx => .seq 1 rx
  | .ph2 rx => .seq 2 rx
  | .ph3 rx => .seq 3 rx
  | .ph4 rx => .seq 4 rx
  | .ph5 rx => .seq 5 rx
  | .ph6 rx => .seq 6 rx
  | .ph7 rx => .seq 7 rx

/-- The bits of a selector that the opcode table encodes, as a number: the command word, or PHASE. -/
def Selector.tableBits : Selector → Nat
  | .cmd w => w.toNat
  | .seq p _ => p.toNat

/-- An instruction's row of spec/opcode_table.json: its "match" and "mask". -/
def tableRow : Instr → Nat × Nat
  | .start _ => (0x100, 0xF00)
  | .wrLed _ => (0x200, 0xF00)
  | .rdBtn _ => (0x300, 0xF00)
  | .wrSeg0 _ => (0x800, 0xF00)
  | .wrSeg1 _ => (0x900, 0xF00)
  | .wrSeg2 _ => (0xA00, 0xF00)
  | .wrSeg3 _ => (0xB00, 0xF00)
  | .wrSeg4 _ => (0xC00, 0xF00)
  | .wrSegBad5 _ => (0xD00, 0xF00)
  | .wrSegBad6 _ => (0xE00, 0xF00)
  | .wrSegBad7 _ => (0xF00, 0xF00)
  | .reserved0 _ => (0x000, 0xF00)
  | .reserved4to7 _ _ => (0x400, 0xC00)
  | .ph0 _ => (0b000, 0b111)
  | .ph1 _ => (0b001, 0b111)
  | .ph2 _ => (0b010, 0b111)
  | .ph3 _ => (0b011, 0b111)
  | .ph4 _ => (0b100, 0b111)
  | .ph5 _ => (0b101, 0b111)
  | .ph6 _ => (0b110, 0b111)
  | .ph7 _ => (0b111, 0b111)

end Sys2Proof
end

