-- ==== Sys2Proof/Config.lean ====
section
/-! DEFINITION. What the environment and the implementation choose: the moves of the environment and
their free and weakly fair order, the open parameters of 00_scope R9, and the glyphs of the segment encoder's table.
Every opaque constant here has no body: a claim about the model holds whatever its value is. -/

namespace Sys2Proof

/-- One atomic event of the total order of 20_memory R58, as the environment offers it. -/
inductive Move where
  /-- Nothing happens in this step. -/
  | idle
  /-- The input `rst` is asserted between two atomic events (R230). -/
  | rst
  /-- The host drives `cmd_valid` with the word `w` (R180). -/
  | host (w : CmdWord)
  /-- The controller executes the outstanding command and responds (R180). -/
  | execute
  /-- The transfer in flight completes and the chain has shifted in `rx`, any byte (R154). -/
  | complete (rx : Byte)
  deriving DecidableEq, Repr, Inhabited

/-- BIT_ORDER: which bit of a byte goes first on the wire (R9). -/
inductive BitOrder where
  | msbFirst
  | lsbFirst
  deriving DecidableEq, Repr, Inhabited

/-- CPHA: the clock edge of a cycle on which a bit is sampled (R9). -/
inductive ClockEdge where
  | first
  | second
  deriving DecidableEq, Repr, Inhabited

/-- The 15 glyphs that have a segment pattern (R101, R102); "clear" is none of them (C13). -/
inductive Glyph where
  | d0 | d1 | d2 | d3 | d4 | d5 | d6 | d7 | d8 | d9
  | capH | capE | capL | smallR | smallO
  deriving DecidableEq, Repr, Inhabited

/-- A stretch of the free order of events: any moves, finitely many of them, and then the completion of
the transfer in flight, if one is, with the byte `rx`. An order made of stretches is weakly fair to
the serial engine (R162; log 13). -/
structure Stretch where
  /-- What happens before the completion is offered: any finite list of moves. -/
  before : List Move
  /-- The byte the chain has shifted in when the completion comes. -/
  rx : Byte
  deriving DecidableEq, Repr, Inhabited

/-- The moves of a stretch, in order. -/
def Stretch.moves (x : Stretch) : List Move := x.before ++ [.complete x.rx]

/-- FREE VALUE (log 2): the stretch of moves the environment makes when State's list of inputs is empty,
by the number of stretches already drawn. It covers the order of events and every byte the chain
shifts in (R58, R209, R12 `draw u8`); being made of stretches it is weakly fair (R162; log 13). -/
opaque Config.schedule : Nat → Stretch

/-- SCK_DIV less one (log 11): SCK_DIV is any positive integer (R9). -/
opaque Config.sckDivLessOne : Nat

/-- CPOL, the level at which `SCK` rests (R9). -/
opaque Config.cpol : Bool

/-- CPHA: `first` is the spec's 0, `second` its 1 (R9). -/
opaque Config.cpha : ClockEdge

/-- BIT_ORDER (R9). -/
opaque Config.bitOrder : BitOrder

/-- MOSI_IDLE: a level, or none for "unspecified" (R9). -/
opaque Config.mosiIdle : Option Bool

/-- GAP in periods of `SCK`, any duration of 0 or more (R9). -/
opaque Config.gap : NNRat

/-- GLYPH_TABLE without the decimal point: the patterns of segments g..a, so that bit 7 of an entry
is clear (R9, R106). -/
opaque Config.glyphTable : Glyph → BitVec 7

/-- SCK_DIV: how many periods of `clk` one period of `SCK` lasts (R9, R156). -/
def Config.sckDiv : Nat := Config.sckDivLessOne + 1

end Sys2Proof
end

