-- ==== Sys2Proof/Machine/State.lean ====
section
/-! DEFINITION. The state of the controller (10_state R20), the reasons a step can stop, and the state
after reset (70_reset R230, R243). -/

namespace Sys2Proof.Machine

/-- The five segment registers SEG[0]..SEG[4] (R23, R40). -/
structure SegFile where
  s0 : Byte
  s1 : Byte
  s2 : Byte
  s3 : Byte
  s4 : Byte
  deriving DecidableEq, Repr

/-- The wire event `Transfer(cs, mosi, miso)` of a completed transfer (00_scope R12, 42_bus_driver
R154): the level of CS during it, the byte shifted out, the byte shifted in. -/
structure WireEvent where
  cs : Bool
  mosi : Byte
  miso : Byte
  deriving DecidableEq, Repr

/-- The transfer in flight: the level it runs under and the byte it shifts out (R35, R154). -/
structure InFlight where
  cs : Bool
  mosi : Byte
  deriving DecidableEq, Repr

/-- Why the machine stops with a fault. -/
inductive Fault where
  /-- `ModelFault(PhaseOutOfRange)` (R28, R130, R211): raised by a sequencer step that finds PHASE = 7,
  a state the hardware cannot reach. Safe: it stops where the spec gives no behaviour. -/
  | phaseOutOfRange
  deriving DecidableEq, Repr

/-- Why an instruction is refused. -/
inductive Refusal where
  /-- Raised by an arm of exec that has no meaning yet; no arm of this model does. Safe. -/
  | notModelled (mnemonic : String)
  deriving DecidableEq, Repr

/-- The registers of R20, then the model's own fields (log 2 to 5). A level of 1 is `true`. -/
structure State where
  /-- LED, written by the host, sampled by START, PH5 and PH6 (R21). -/
  led : Byte
  /-- BTN, written by PH0, read by the host (R22). -/
  btn : Byte
  /-- SEG[0..4], written by the host, SEG[k] sampled by PHk (R23). -/
  seg : SegFile
  /-- PHASE (R26). -/
  phase : PhaseVal
  /-- CS, the framing line: `true` is 1, asserted (R30). -/
  cs : Bool
  /-- RUN: `true` once START has been executed (R32); a transfer is then in flight (R35). -/
  run : Bool
  /-- TXD, the outgoing byte buffer (R34). -/
  txd : Byte
  /-- The command accepted and not yet answered (R180); model's field, log 5. -/
  cmd : Option CmdWord
  /-- The responses given, oldest first (R71, R180); model's field, log 4. -/
  rsps : List RspWord
  /-- The wire events emitted, oldest first (R154); model's field, log 4. -/
  wire : List WireEvent
  /-- Moves of the environment already decided, the next one first; model's field, log 3. -/
  inputs : List Move
  /-- How many stretches of moves were drawn from `Config.schedule`; model's field, log 2. -/
  drawn : Nat
  deriving DecidableEq, Repr

/-- The all-blank segment frame (R20: 0x00 each). -/
def SegFile.blank : SegFile := ⟨0, 0, 0, 0, 0⟩

/-- The clean reset state (R230, R243; values of R20). The last two fields are the model's own: no
input decided, no stretch drawn (log 2, log 3). -/
def State.reset : State where
  led := 0
  btn := 0
  seg := SegFile.blank
  phase := 0
  cs := true
  run := false
  txd := 0
  cmd := none
  rsps := []
  wire := []
  inputs := []
  drawn := 0

end Sys2Proof.Machine
end

