-- ==== Sys2Proof/Machine/Flags.lean ====
section
/-! DEFINITION. The status of a response (30_encoding R71; 60_exceptions R200). The controller has no
condition codes and no sticky error bit (10_state R39): this field of a response is all it reports. -/

namespace Sys2Proof.Machine

/-- The STATUS values of a response (R71, R200). -/
inductive Status where
  | ok
  | errBadOp
  | errDigitRange
  | errAlreadyRunning
  deriving DecidableEq, Repr

/-- The code of a status, `RSP[9:8]` (R200). -/
def statusCode : Status → BitVec 2
  | .ok => 0
  | .errBadOp => 1
  | .errDigitRange => 2
  | .errAlreadyRunning => 3

/-- The response word `STATUS ++ RDATA` (R71). -/
def rspWord (st : Status) (rdata : Byte) : RspWord := statusCode st ++ rdata

/-- The field STATUS, `RSP[9:8]` (R71). -/
def rspStatus (r : RspWord) : BitVec 2 := r.extractLsb' 8 2

/-- The field RDATA, `RSP[7:0]` (R71). -/
def rspData (r : RspWord) : Byte := r.extractLsb' 0 8

end Sys2Proof.Machine
end

