-- ==== Sys2Proof/Machine/Operands.lean ====
section
/-! DEFINITION. The operand forms: one register of the segment file by its digit position (10_state R23,
R24; 30_encoding R72), and the transfer in flight as the registers give it (R35). Every other operand
is a named register or the byte of the command or of the completed transfer. -/

namespace Sys2Proof.Machine

/-- SEG[k] (R23). -/
def SegFile.read (f : SegFile) (k : Digit) : Byte :=
  match k with
  | 0 => f.s0
  | 1 => f.s1
  | 2 => f.s2
  | 3 => f.s3
  | 4 => f.s4

/-- SEG[k] <- d, the other four unchanged (R182). -/
def SegFile.write (f : SegFile) (k : Digit) (d : Byte) : SegFile :=
  match k with
  | 0 => { f with s0 := d }
  | 1 => { f with s1 := d }
  | 2 => { f with s2 := d }
  | 3 => { f with s3 := d }
  | 4 => { f with s4 := d }

/-- The transfer in flight: one exactly while RUN = 1, of the byte TXD at the level CS (R35). -/
def State.inFlight (s : State) : Option InFlight :=
  if s.run then some ⟨s.cs, s.txd⟩ else none

/-- `cmd_ready`: high when no command is outstanding (R180). -/
def State.cmdReady (s : State) : Bool := s.cmd.isNone

end Sys2Proof.Machine
end

