-- ==== Sys2Proof/Machine/Ops.lean ====
section
/-! DEFINITION. The named operations over the registers: the one way a meaning reads or writes them. The
controller has no memory (20_memory R50). -/

namespace Sys2Proof.Machine

/-- LED <- d (R181). -/
def State.setLed (s : State) (d : Byte) : State := { s with led := d }

/-- BTN <- d (R123). -/
def State.setBtn (s : State) (d : Byte) : State := { s with btn := d }

/-- SEG[k] <- d (R182). -/
def State.setSeg (s : State) (k : Digit) (d : Byte) : State := { s with seg := s.seg.write k d }

/-- PHASE <- p (R122). -/
def State.setPhase (s : State) (p : PhaseVal) : State := { s with phase := p }

/-- CS <- level (R128, R129, R152). -/
def State.setCs (s : State) (level : Bool) : State := { s with cs := level }

/-- RUN <- 1 (R152). -/
def State.setRun (s : State) : State := { s with run := true }

/-- TXD <- b: the byte queued for the next transfer (R34). -/
def State.queue (s : State) (b : Byte) : State := { s with txd := b }

/-- `emit Transfer(cs, mosi, miso)` (R12, R154). -/
def State.emit (s : State) (e : WireEvent) : State := { s with wire := s.wire ++ [e] }

/-- The response is given and the command ends (R12 `respond`, R71, R180). -/
def State.respond (s : State) (st : Status) (rdata : Byte) : State :=
  { s with rsps := s.rsps ++ [rspWord st rdata], cmd := none }

/-- The command `w` is accepted: it is outstanding until its response (R180). While another is
outstanding `cmd_ready` is low and nothing is accepted. -/
def State.acceptCmd (s : State) (w : CmdWord) : State :=
  if s.cmdReady then { s with cmd := some w } else s

/-- `rst`: every register takes its reset value, the transfer in flight and an unanswered command are
abandoned, no wire event and no response is recorded for them (R230). What was already emitted
stays on record (log 4), and the environment's moves are its own. -/
def State.assertReset (s : State) : State :=
  { State.reset with rsps := s.rsps, wire := s.wire, inputs := s.inputs, drawn := s.drawn }

/-- `raise HostError(code)`: change no register and respond with the code and RDATA 0x00 (R12, R204).
This is all of error entry: nothing is saved, no mode changes, control goes nowhere, and there is
no return (R204, R206). -/
def raiseHostError (code : Status) (s : State) : Host.Outcome State Fault Refusal :=
  .next (s.respond code 0)

/-- `(p + 1) mod 7` on PHASE (R122). -/
def nextPhase (p : PhaseVal) : PhaseVal := BitVec.ofNat 3 ((p.toNat + 1) % 7)

/-- One sequencer step with the given action (R122): the fault of R130 first; then the action; then
PHASE advances; then the next transfer starts, of the byte in TXD at the level of CS, which RUN
alone represents (R35), so it changes no register. -/
def seqStep (action : State → State) (s : State) : Host.Outcome State Fault Refusal :=
  if s.phase = 7 then .fault .phaseOutOfRange
  else .next ((action s).setPhase (nextPhase s.phase))

end Sys2Proof.Machine
end

