-- ==== Sys2Proof/Machine/HostPort.lean ====
section
/-! DEFINITION. The meanings of the host commands (43_host_port; START is 42_bus_driver R152, R153). -/

namespace Sys2Proof.Machine

/-- What every WR_SEG k does, k in 0..4 (R182). -/
def writeDigit (k : Digit) (d : Byte) (s : State) : Host.Outcome State Fault Refusal :=
  .next ((s.setSeg k d).respond .ok 0)

/-- START (R152): rejected while running (R153); else the kick-off transfer of LED starts. The DATA
byte is ignored (R75). -/
def execStart (_x : Byte) (s : State) : Host.Outcome State Fault Refusal :=
  if s.run then raiseHostError .errAlreadyRunning s
  else .next ((((s.setCs true).queue s.led).setRun).respond .ok 0)

/-- WR_LED d (R181). -/
def execWrLed (d : Byte) (s : State) : Host.Outcome State Fault Refusal :=
  .next ((s.setLed d).respond .ok 0)

/-- RD_BTN (R184). The DATA byte is ignored (R75). -/
def execRdBtn (_x : Byte) (s : State) : Host.Outcome State Fault Refusal :=
  .next (s.respond .ok s.btn)

/-- WR_SEG 0, d (R182). -/
def execWrSeg0 (d : Byte) (s : State) : Host.Outcome State Fault Refusal := writeDigit 0 d s

/-- WR_SEG 1, d (R182). -/
def execWrSeg1 (d : Byte) (s : State) : Host.Outcome State Fault Refusal := writeDigit 1 d s

/-- WR_SEG 2, d (R182). -/
def execWrSeg2 (d : Byte) (s : State) : Host.Outcome State Fault Refusal := writeDigit 2 d s

/-- WR_SEG 3, d (R182). -/
def execWrSeg3 (d : Byte) (s : State) : Host.Outcome State Fault Refusal := writeDigit 3 d s

/-- WR_SEG 4, d (R182). -/
def execWrSeg4 (d : Byte) (s : State) : Host.Outcome State Fault Refusal := writeDigit 4 d s

/-- WR_SEG with the invalid digit 5 (R183, R202). -/
def execWrSegBad5 (_d : Byte) (s : State) : Host.Outcome State Fault Refusal :=
  raiseHostError .errDigitRange s

/-- WR_SEG with the invalid digit 6 (R183, R202). -/
def execWrSegBad6 (_d : Byte) (s : State) : Host.Outcome State Fault Refusal :=
  raiseHostError .errDigitRange s

/-- WR_SEG with the invalid digit 7 (R183, R202). -/
def execWrSegBad7 (_d : Byte) (s : State) : Host.Outcome State Fault Refusal :=
  raiseHostError .errDigitRange s

/-- The reserved opcode 0x0 (R185, R201). -/
def execReserved0 (_d : Byte) (s : State) : Host.Outcome State Fault Refusal :=
  raiseHostError .errBadOp s

/-- The reserved opcodes 0x4..0x7 (R185, R201). -/
def execReserved4to7 (_opc : Opc) (_d : Byte) (s : State) : Host.Outcome State Fault Refusal :=
  raiseHostError .errBadOp s

end Sys2Proof.Machine
end

