-- ==== Sys2Proof/Machine/Sequencer.lean ====
section
/-! DEFINITION. The meanings of the sequencer's actions (41_sequencer R122 to R131). The received byte is
read by PH0 alone (R131). -/

namespace Sys2Proof.Machine

/-- PH0: the button byte is stored and SEG[0] queued in one event (R123). -/
def execPh0 (rx : Byte) (s : State) : Host.Outcome State Fault Refusal :=
  seqStep (fun t => (t.setBtn rx).queue (t.seg.read 0)) s

/-- PH1 (R124). -/
def execPh1 (_rx : Byte) (s : State) : Host.Outcome State Fault Refusal :=
  seqStep (fun t => t.queue (t.seg.read 1)) s

/-- PH2 (R125). -/
def execPh2 (_rx : Byte) (s : State) : Host.Outcome State Fault Refusal :=
  seqStep (fun t => t.queue (t.seg.read 2)) s

/-- PH3 (R126). -/
def execPh3 (_rx : Byte) (s : State) : Host.Outcome State Fault Refusal :=
  seqStep (fun t => t.queue (t.seg.read 3)) s

/-- PH4 (R127). -/
def execPh4 (_rx : Byte) (s : State) : Host.Outcome State Fault Refusal :=
  seqStep (fun t => t.queue (t.seg.read 4)) s

/-- PH5: CS is deasserted, then LED queued (R128). -/
def execPh5 (_rx : Byte) (s : State) : Host.Outcome State Fault Refusal :=
  seqStep (fun t => (t.setCs false).queue t.led) s

/-- PH6: CS is asserted, then LED queued (R129). -/
def execPh6 (_rx : Byte) (s : State) : Host.Outcome State Fault Refusal :=
  seqStep (fun t => (t.setCs true).queue t.led) s

/-- PH7: PHASE = 7 selects no action; the model fault (R130). -/
def execPh7 (_rx : Byte) (_s : State) : Host.Outcome State Fault Refusal :=
  .fault .phaseOutOfRange

end Sys2Proof.Machine
end

