-- ==== Sys2Proof/Machine/Dispatch.lean ====
section
/-! DEFINITION. exec: one arm per constructor of Instr, each one call of its meaning. -/

namespace Sys2Proof.Machine

def exec (i : Instr) (s : State) : Host.Outcome State Fault Refusal :=
  match i with
  | .start x => Sys2Proof.Machine.execStart x s
  | .wrLed d => Sys2Proof.Machine.execWrLed d s
  | .rdBtn x => Sys2Proof.Machine.execRdBtn x s
  | .wrSeg0 d => Sys2Proof.Machine.execWrSeg0 d s
  | .wrSeg1 d => Sys2Proof.Machine.execWrSeg1 d s
  | .wrSeg2 d => Sys2Proof.Machine.execWrSeg2 d s
  | .wrSeg3 d => Sys2Proof.Machine.execWrSeg3 d s
  | .wrSeg4 d => Sys2Proof.Machine.execWrSeg4 d s
  | .wrSegBad5 d => Sys2Proof.Machine.execWrSegBad5 d s
  | .wrSegBad6 d => Sys2Proof.Machine.execWrSegBad6 d s
  | .wrSegBad7 d => Sys2Proof.Machine.execWrSegBad7 d s
  | .reserved0 d => Sys2Proof.Machine.execReserved0 d s
  | .reserved4to7 opc d => Sys2Proof.Machine.execReserved4to7 opc d s
  | .ph0 rx => Sys2Proof.Machine.execPh0 rx s
  | .ph1 rx => Sys2Proof.Machine.execPh1 rx s
  | .ph2 rx => Sys2Proof.Machine.execPh2 rx s
  | .ph3 rx => Sys2Proof.Machine.execPh3 rx s
  | .ph4 rx => Sys2Proof.Machine.execPh4 rx s
  | .ph5 rx => Sys2Proof.Machine.execPh5 rx s
  | .ph6 rx => Sys2Proof.Machine.execPh6 rx s
  | .ph7 rx => Sys2Proof.Machine.execPh7 rx s

end Sys2Proof.Machine
end

