-- ==== Sys2Proof/Machine/Events.lean ====
section
/-! DEFINITION. The events of the total order (20_memory R58): what each move of the environment does, which
move comes next, and how an instruction is placed so that the next step runs it. -/

namespace Sys2Proof.Machine

/-- The controller executes the outstanding command as one atomic event (R180); with none outstanding
nothing is enabled and nothing happens. -/
def executeCmd (s : State) : Host.Outcome State Fault Refusal :=
  match s.cmd with
  | some w => exec (decode (.cmd w)) s
  | none => .next s

/-- `Complete()` (R154), enabled only while a transfer is in flight: the wire event is emitted and the
sequencer step that PHASE selects runs, in the same event. While RUN = 0 nothing happens (R158). -/
def completeTransfer (rx : Byte) (s : State) : Host.Outcome State Fault Refusal :=
  if s.run then exec (decode (.seq s.phase rx)) (s.emit ⟨s.cs, s.txd, rx⟩)
  else .next s

/-- What one move does. -/
def applyMove (m : Move) (s : State) : Host.Outcome State Fault Refusal :=
  match m with
  | .idle => .next s
  | .rst => .next s.assertReset
  | .host w => .next (s.acceptCmd w)
  | .execute => executeCmd s
  | .complete rx => completeTransfer rx s

/-- Where no input is decided, the free stretch of this draw is decided (log 2). A stretch ends in a
completion, so that a transfer that stays in flight completes (R162; log 13). -/
def State.draw (s : State) : State :=
  match s.inputs with
  | _ :: _ => s
  | [] => { s with inputs := (Config.schedule s.drawn).moves, drawn := s.drawn + 1 }

/-- The move the environment offers next: the first of the decided inputs, of which there is one once the
free stretch is drawn (law `draw_inputs_ne_nil`). -/
def State.offered (s : State) : Move := s.draw.inputs.headD .idle

/-- The host offers a command while one is outstanding: `cmd_ready` is low and it must wait (R180). -/
def State.hostWaits (s : State) : Bool :=
  match s.offered with
  | .host _ => !s.cmdReady
  | _ => false

/-- The move that happens next. While the host waits, it is the execution of the outstanding command
(R180, R190: "wait for the response before the next command"). -/
def State.nextMove (s : State) : Move :=
  if s.hostWaits then .execute else s.offered

/-- The offered move is taken from the inputs; a host that waits keeps its command offered. -/
def State.takeMove (s : State) : State :=
  if s.hostWaits then s.draw else { s.draw with inputs := s.draw.inputs.tail }

/-- The state in which the next step runs the operation `x` selects: a command is outstanding and its
execution comes next; for a sequencer action PHASE selects it, a transfer is in flight (RUN = 1)
and its completion with the byte `rx` comes next (log 3). -/
def State.place (s : State) (x : Selector) : State :=
  match x with
  | .cmd w => { s with cmd := some w, inputs := .execute :: s.inputs }
  | .seq p rx => { s with phase := p, run := true, inputs := .complete rx :: s.inputs }

/-- A numeral of an opcode-table row, placed; what is no encoding places nothing. -/
def State.placeTableWord (s : State) (nbits w : Nat) : State :=
  match selectorOfNat (formatOfBits nbits) w with
  | .ok x => s.place x
  | .error _ => s

/-- The events of a run one after another, stopping at the first fault or refusal: a total order of
events (R58). -/
def runMoves : List Move → State → Host.Outcome State Fault Refusal
  | [], s => .next s
  | m :: ms, s =>
    match applyMove m s with
    | .next t => runMoves ms t
    | .fault r => .fault r
    | .refused r => .refused r

end Sys2Proof.Machine
end

