-- ==== Sys2Proof/Machine/Step.lean ====
section
/-! DEFINITION. One step: the next event of the total order (20_memory R58). -/

namespace Sys2Proof.Machine

/-- One step: the next move happens. -/
def step (s : State) : Host.Outcome State Fault Refusal :=
  applyMove s.nextMove s.takeMove

/-- `s` with the instruction of an opcode-table row placed where the next step runs it (log 3). -/
def State.withFetchWord (s : State) (nbits w : Nat) : State :=
  s.placeTableWord nbits w

end Sys2Proof.Machine
end

