-- ==== Sys2Proof/Machine/SegmentEncoder.lean ====
section
/-! DEFINITION. The segment encoder, a host-side companion function outside the controller
(40_segment_encoder R100 to R107). No operation of the controller calls it (R100). -/

namespace Sys2Proof.Machine

/-- The code of the "clear" marker (R101). -/
def clearCode : Byte := 0x20

/-- The glyph a byte codes, for the 15 codes that have a pattern (R101, R102). -/
def glyphOf (g : Byte) : Option Glyph :=
  if g = 0x30 then some .d0
  else if g = 0x31 then some .d1
  else if g = 0x32 then some .d2
  else if g = 0x33 then some .d3
  else if g = 0x34 then some .d4
  else if g = 0x35 then some .d5
  else if g = 0x36 then some .d6
  else if g = 0x37 then some .d7
  else if g = 0x38 then some .d8
  else if g = 0x39 then some .d9
  else if g = 0x48 then some .capH
  else if g = 0x45 then some .capE
  else if g = 0x4C then some .capL
  else if g = 0x72 then some .smallR
  else if g = 0x6F then some .smallO
  else none

/-- An entry of GLYPH_TABLE as a byte: bit 7 is clear (R106). -/
def glyphBase (table : Glyph → BitVec 7) (g : Glyph) : Byte := 0#1 ++ table g

/-- `encode(glyph, decimalPoint)` under a given GLYPH_TABLE (R102 to R105). -/
def encodeGlyphWith (table : Glyph → BitVec 7) (g : Byte) (dp : Bool) : Byte :=
  if g = clearCode then 0x00
  else
    match glyphOf g with
    | none => 0x00
    | some gl => if dp then glyphBase table gl ||| 0x80 else glyphBase table gl

/-- `encode(glyph, decimalPoint)` under the open parameter GLYPH_TABLE (R102, R106). -/
def encodeGlyph (g : Byte) (dp : Bool) : Byte := encodeGlyphWith Config.glyphTable g dp

/-- The conventional table R106 offers, marked there as general knowledge: PRESUMED, used by tests only
(log 12). -/
def conventionalTable : Glyph → BitVec 7
  | .d0 => 0x3F
  | .d1 => 0x06
  | .d2 => 0x5B
  | .d3 => 0x4F
  | .d4 => 0x66
  | .d5 => 0x6D
  | .d6 => 0x7D
  | .d7 => 0x07
  | .d8 => 0x7F
  | .d9 => 0x6F
  | .capH => 0x76
  | .capE => 0x79
  | .capL => 0x38
  | .smallR => 0x50
  | .smallO => 0x5C

end Sys2Proof.Machine
end

