-- ==== Sys2Proof/Machine/Assembler.lean ====
section
/-! DEFINITION. The spec's notation for host programs, as data (30_encoding R82, R83; 42_bus_driver R158):
the lines, the words each assembles to, and the moves a program stands for. -/

namespace Sys2Proof.Machine

/-- A line of a host program (R82, R83); operands are the numbers written. -/
inductive AsmLine where
  | start
  | wrLed (d : Nat)
  | rdBtn
  | wrSeg (k d : Nat)
  | word (w : Nat)
  | wrDigit (k g dp : Nat)
  | blank (k : Nat)
  | wrFrame (b0 b1 b2 b3 b4 : Nat)
  deriving DecidableEq, Repr

/-- A line of a test program: a command line, or the completion `XFER miso=b` (R158). -/
inductive ProgLine where
  | line (l : AsmLine)
  | xfer (miso : Nat)
  deriving DecidableEq, Repr

/-- A byte operand, in 0..255 (R82). -/
def byteOperand (n : Nat) : Option Byte :=
  if n < 256 then some (BitVec.ofNat 8 n) else none

/-- The operand `dp`, 0 (false) or 1 (true) (R83). -/
def dpOperand (n : Nat) : Option Bool :=
  if n = 0 then some false else if n = 1 then some true else none

/-- `WR_LED d` is the word `0x200 + d` (R82). -/
def wrLedWord (d : Nat) : Option CmdWord :=
  match byteOperand d with
  | some b => some (BitVec.ofNat 12 (0x200 + b.toNat))
  | none => none

/-- `WR_SEG k, d` is the word `0x800 + k * 0x100 + d`; a k above 4 is refused (R82). -/
def wrSegWord (k d : Nat) : Option CmdWord :=
  match byteOperand d with
  | some b => if k ≤ 4 then some (BitVec.ofNat 12 (0x800 + k * 0x100 + b.toNat)) else none
  | none => none

/-- The words a line assembles to, in order; none where the assembler refuses it (R82, R83). -/
def assemble (table : Glyph → BitVec 7) : AsmLine → Option (List CmdWord)
  | .start => some [0x100]
  | .wrLed d => (wrLedWord d).map fun w => [w]
  | .rdBtn => some [0x300]
  | .wrSeg k d => (wrSegWord k d).map fun w => [w]
  | .word w => if w < 4096 then some [BitVec.ofNat 12 w] else none
  | .wrDigit k g dp =>
    match byteOperand g, dpOperand dp with
    | some gb, some db => (wrSegWord k (encodeGlyphWith table gb db).toNat).map fun w => [w]
    | _, _ => none
  | .blank k => (wrSegWord k 0x00).map fun w => [w]
  | .wrFrame b0 b1 b2 b3 b4 =>
    match wrSegWord 0 b0, wrSegWord 1 b1, wrSegWord 2 b2, wrSegWord 3 b3, wrSegWord 4 b4 with
    | some w0, some w1, some w2, some w3, some w4 => some [w0, w1, w2, w3, w4]
    | _, _, _, _, _ => none

/-- The moves of one command: the host presents it, and it is executed and answered (R180). -/
def commandMoves (w : CmdWord) : List Move := [.host w, .execute]

/-- The moves of one program line. -/
def lineMoves (table : Glyph → BitVec 7) : ProgLine → Option (List Move)
  | .line l => (assemble table l).map fun ws => ws.flatMap commandMoves
  | .xfer miso => (byteOperand miso).map fun b => [.complete b]

/-- The moves of a program, in order; none where a line is refused. -/
def programMoves (table : Glyph → BitVec 7) : List ProgLine → Option (List Move)
  | [] => some []
  | l :: ls =>
    match lineMoves table l, programMoves table ls with
    | some ms, some rest => some (ms ++ rest)
    | _, _ => none

/-- `s` with the moves `ms` as the decided inputs of the environment: how a program comes to run
(log 3). -/
def State.loadMoves (s : State) (ms : List Move) : State := { s with inputs := ms }

end Sys2Proof.Machine
end

