-- ==== Sys2Proof/Machine/BitLevel.lean ====
section
/-! DEFINITION. A transfer at bit level, a companion to the wire events (42_bus_driver R156, R157; 70_reset
R241). It is stated over the open parameters of 00_scope R9 and no transaction-level definition
reads it (R7). -/

namespace Sys2Proof.Machine

/-- The bit-level parameters of R9, as arguments. -/
structure SerialParams where
  sckDiv : Nat
  cpol : Bool
  cpha : ClockEdge
  bitOrder : BitOrder
  mosiIdle : Option Bool
  gap : NNRat

/-- The implementation's parameters: the open values of Config. -/
def serialParams : SerialParams where
  sckDiv := Config.sckDiv
  cpol := Config.cpol
  cpha := Config.cpha
  bitOrder := Config.bitOrder
  mosiIdle := Config.mosiIdle
  gap := Config.gap

/-- Which bit of a byte is on the line in cycle `i` of a transfer, counted from 0 (R156). -/
def bitIndex (o : BitOrder) (i : Nat) : Nat :=
  match o with
  | .msbFirst => 7 - i
  | .lsbFirst => i

/-- The 8 bits of a byte in the order they cross the wire (R156). -/
def bitsOut (o : BitOrder) (b : Byte) : List Bool :=
  (List.range 8).map fun i => b.getLsbD (bitIndex o i)

/-- One bit shifted into the receiving register (R156): the first bit in ends in bit 7 with MSB_FIRST
and in bit 0 with LSB_FIRST. -/
def shiftIn (o : BitOrder) (acc : Byte) (bit : Bool) : Byte :=
  match o with
  | .msbFirst => acc.extractLsb' 0 7 ++ BitVec.ofBool bit
  | .lsbFirst => BitVec.ofBool bit ++ acc.extractLsb' 1 7

/-- The byte received from the bits of a transfer, in the order they came in (R156). -/
def byteIn (o : BitOrder) (bits : List Bool) : Byte := bits.foldl (shiftIn o) 0

/-- One cycle of SCK: the data lines during it, the level of SCK before its first edge, between its
edges and after its second, and the edge on which the bits are sampled (R156). -/
structure SckCycle where
  mosi : Bool
  miso : Bool
  sckBefore : Bool
  sckBetween : Bool
  sckAfter : Bool
  sampledOn : ClockEdge
  deriving DecidableEq, Repr

/-- The 8 cycles of a transfer that shifts `tx` out and `rx` in (R156). -/
def transferCycles (p : SerialParams) (tx rx : Byte) : List SckCycle :=
  ((bitsOut p.bitOrder tx).zip (bitsOut p.bitOrder rx)).map fun b =>
    { mosi := b.1, miso := b.2, sckBefore := p.cpol, sckBetween := !p.cpol, sckAfter := p.cpol,
      sampledOn := p.cpha }

/-- The waveform of a wire event: one level of CS throughout, since CS changes only while SCK rests
(R155, R156), and the cycles of the transfer. -/
def waveform (p : SerialParams) (e : WireEvent) : Bool × List SckCycle :=
  (e.cs, transferCycles p e.mosi e.miso)

/-- The levels of SCK and MOSI outside transfers (R157, R232); no MOSI level where it is unspecified. -/
def idleLevels (p : SerialParams) : Bool × Option Bool := (p.cpol, p.mosiIdle)

/-- How many periods of clk one transfer lasts (R241; general knowledge there, GK5). -/
def transferClks (p : SerialParams) : Nat := 8 * p.sckDiv

/-- How many periods of clk the GAP after a transfer lasts (R9, R157). -/
def gapClks (p : SerialParams) : NNRat := p.gap * p.sckDiv

end Sys2Proof.Machine
end

