-- ==== Sys2Proof/Safety.lean ====
section
/-! DEFINITION. What the claims speak of: the invariants of 10_state, the registers as one value, and the
wire as 42_bus_driver R159 describes it. -/

namespace Sys2Proof.Machine

/-- The states the hardware can be in between atomic events: PHASE is legal (R28), CS = 0 if and only
if PHASE = 6 (R37), and PHASE = 0 before START (R38). -/
abbrev State.Inv (s : State) : Prop :=
  s.phase ≠ 7 ∧ (s.cs = false ↔ s.phase = 6) ∧ (s.run = false → s.phase = 0)

/-- Every register of R20 has the same value in both states. -/
abbrev State.SameRegisters (s t : State) : Prop :=
  t.led = s.led ∧ t.btn = s.btn ∧ t.seg = s.seg ∧ t.phase = s.phase ∧ t.cs = s.cs ∧ t.run = s.run ∧
    t.txd = s.txd

/-- Neither the inputs of the environment nor the count of free stretches differs. -/
abbrev State.SameEnvironment (s t : State) : Prop :=
  t.inputs = s.inputs ∧ t.drawn = s.drawn

/-- A move is the assertion of `rst`. -/
def isRst : Move → Bool
  | .rst => true
  | _ => false

/-- A move is the completion of a transfer. -/
def isComplete : Move → Bool
  | .complete _ => true
  | _ => false

/-- How many completions a list of moves holds. -/
def completions (ms : List Move) : Nat := ms.countP isComplete

/-- The byte the step PHp queues, for p in 0..6 (R81). -/
def queuedByte (s : State) (p : Nat) : Byte :=
  match p with
  | 0 => s.seg.s0
  | 1 => s.seg.s1
  | 2 => s.seg.s2
  | 3 => s.seg.s3
  | 4 => s.seg.s4
  | _ => s.led

/-- The byte shifted out in transfer n, with the registers fixed as in `s` (R159). -/
def wireByte (s : State) (n : Nat) : Byte :=
  if n = 0 then s.led else queuedByte s ((n - 1) % 7)

/-- The level of CS during transfer n: 0 exactly for n mod 7 = 6 (R159). -/
def wireCs (n : Nat) : Bool := n % 7 != 6

/-- The wire events of the transfers that receive `rxs`, from transfer `n` on, with the registers fixed
as in `s` (R159). -/
def wireView (s : State) : Nat → List Byte → List WireEvent
  | _, [] => []
  | n, rx :: rxs => ⟨wireCs n, wireByte s n, rx⟩ :: wireView s (n + 1) rxs

/-- The command `WR_SEG k, d` (R182), for statements over all five digits. -/
def segCommand (k : Digit) (d : Byte) : Instr :=
  match k with
  | 0 => .wrSeg0 d
  | 1 => .wrSeg1 d
  | 2 => .wrSeg2 d
  | 3 => .wrSeg3 d
  | 4 => .wrSeg4 d

/-- The action PHk that samples SEG[k] (R123 to R127), for statements over all five digits. -/
def segAction (k : Digit) (rx : Byte) : Instr :=
  match k with
  | 0 => .ph0 rx
  | 1 => .ph1 rx
  | 2 => .ph2 rx
  | 3 => .ph3 rx
  | 4 => .ph4 rx

/-- The command word is a `WR_SEG k` (R73). -/
def writesSeg (k : Digit) (w : CmdWord) : Bool := (opcOf w).toNat == 8 + k.val

/-- The move presents a command that is a `WR_SEG k`. -/
def offersSeg (k : Digit) : Move → Bool
  | .host w => writesSeg k w
  | _ => false

/-- The move presents a command that is a `WR_LED` (R73). -/
def offersLed : Move → Bool
  | .host w => opcOf w == 0x2
  | _ => false

/-- The steps of a machine run `k` times, stopping at the first fault or refusal. -/
def stepN : Nat → State → Host.Outcome State Fault Refusal
  | 0, s => .next s
  | k + 1, s =>
    match step s with
    | .next t => stepN k t
    | .fault r => .fault r
    | .refused r => .refused r

end Sys2Proof.Machine
end

