-- ==== Sys2Proof/Certificates/Slice0/Obligations.lean ====
section
/-! DEFINITION. The statements about the controller. A docstring names the rules of spec/ a statement comes
from, or the log entry where it rests on a choice of the model. -/

open Sys2Proof Sys2Proof.Machine

/-! ## Encoding -/

/-- A few words written out from the spec's vectors D-3, D-6, D-8, D-12, D-13, D-9, D-2 and the actions
PHASE = 0 and 7 decode to what they stand for (95_test_vectors 2.2; R73, R81). -/
def Obligations.SampleWordsDecodeAsListed : Prop :=
  decode (.cmd 0b000100000000) = .start 0x00 ∧
  decode (.cmd 0b001011111111) = .wrLed 0xFF ∧
  decode (.cmd 0b001110101011) = .rdBtn 0xAB ∧
  decode (.cmd 0b110011111111) = .wrSeg4 0xFF ∧
  decode (.cmd 0b110100000000) = .wrSegBad5 0x00 ∧
  decode (.cmd 0b010000000000) = .reserved4to7 0x4 0x00 ∧
  decode (.cmd 0b000011111111) = .reserved0 0xFF ∧
  decode (.seq 0b000 0x5A) = .ph0 0x5A ∧
  decode (.seq 0b111 0x5A) = .ph7 0x5A

/-- Decoding what an instruction encodes to gives it back, for every well-formed instruction (R73, R74,
R81). -/
def Obligations.DecodeAfterEncodeIsIdentity : Prop :=
  ∀ i : Instr, i.wellFormed = true → decode (encode i) = i

/-- Encoding what a selector decodes to gives it back: no bit of a command word and no value of PHASE is
lost in decoding (R74, R81). -/
def Obligations.EncodeAfterDecodeIsIdentity : Prop :=
  ∀ x : Selector, encode (decode x) = x

/-- R74: the decoding function, clause by clause, on every one of the 4096 words. -/
def Obligations.DecodingFollowsTheOpcodeMap : Prop :=
  ∀ w : CmdWord,
    w.toNat = (opcOf w).toNat * 256 + (dataOf w).toNat ∧
    (∀ k : Digit, (opcOf w).toNat = 8 + k.val → decode (.cmd w) = segCommand k (dataOf w)) ∧
    (opcOf w = 0xD → decode (.cmd w) = .wrSegBad5 (dataOf w)) ∧
    (opcOf w = 0xE → decode (.cmd w) = .wrSegBad6 (dataOf w)) ∧
    (opcOf w = 0xF → decode (.cmd w) = .wrSegBad7 (dataOf w)) ∧
    (opcOf w = 0x1 → decode (.cmd w) = .start (dataOf w)) ∧
    (opcOf w = 0x2 → decode (.cmd w) = .wrLed (dataOf w)) ∧
    (opcOf w = 0x3 → decode (.cmd w) = .rdBtn (dataOf w)) ∧
    (opcOf w = 0x0 → decode (.cmd w) = .reserved0 (dataOf w)) ∧
    (4 ≤ (opcOf w).toNat → (opcOf w).toNat ≤ 7 →
      decode (.cmd w) = .reserved4to7 (opcOf w) (dataOf w))

/-! ## Host commands -/

/-- R152: START with RUN = 0 sets CS to 1, TXD to LED, RUN to 1, leaves PHASE, begins the kick-off
transfer of LED at CS = 1 and answers 0x000; with RUN = 1 it is rejected. In every state of the
hardware PHASE is then 0, so that the first completion runs PH0. -/
def Obligations.StartBeginsTheCycle : Prop :=
  ∀ (x : Byte) (s : State),
    opcOf (cmdWord 0x1 x) = 0x1 ∧ encode (.start x) = .cmd (cmdWord 0x1 x) ∧
    (s.run = false → ∃ t, exec (.start x) s = .next t ∧
      t = { s with cs := true, txd := s.led, run := true, rsps := s.rsps ++ [0x000], cmd := none } ∧
      t.inFlight = some ⟨true, s.led⟩ ∧
      (s.Inv → t.cs = s.cs ∧ t.phase = 0 ∧ ∀ rx, decode (.seq t.phase rx) = .ph0 rx)) ∧
    (s.run = true →
      exec (.start x) s = .next { s with rsps := s.rsps ++ [0x300], cmd := none })

/-- R153: START with RUN = 1 answers 0x300 and changes no state; the transfer in flight is untouched. -/
def Obligations.StartWhileRunningIsRejected : Prop :=
  ∀ (x : Byte) (s : State), s.run = true → ∃ t, exec (.start x) s = .next t ∧
    t = { s with rsps := s.rsps ++ [0x300], cmd := none } ∧ s.SameRegisters t ∧
    t.inFlight = s.inFlight

/-- R181: WR_LED d stores d in LED and nothing else, answers 0x000 in every state and starts no transfer;
whatever events follow, without a reset and another WR_LED, the next START, PH5 or PH6 transmits d. -/
def Obligations.WriteLedStoresTheByte : Prop :=
  ∀ (d : Byte) (s : State), encode (.wrLed d) = .cmd (BitVec.ofNat 12 (0x200 + d.toNat)) ∧
    ∃ t, exec (.wrLed d) s = .next t ∧
      t = { s with led := d, rsps := s.rsps ++ [0x000], cmd := none } ∧
      t.inFlight = s.inFlight ∧
      ∀ (ms : List Move) (u : State), (∀ m ∈ ms, isRst m = false ∧ offersLed m = false) →
        runMoves ms t = .next u →
        (u.run = false → ∀ x, ∃ v, exec (.start x) u = .next v ∧ v.txd = d) ∧
        (u.run = true → u.phase = 5 ∨ u.phase = 6 →
          ∀ rx, ∃ v, applyMove (.complete rx) u = .next v ∧ v.txd = d)

/-- R182: WR_SEG k, d for k in 0..4 (the constructors wrSeg0 to wrSeg4) stores d in SEG[k], whatever the
byte, leaves the other four and everything else, answers 0x000 in every state; whatever events
follow, without a reset and another WR_SEG k, the next PHk transmits d. -/
def Obligations.WriteSegStoresTheDigit : Prop :=
  ∀ (k : Digit) (d : Byte) (s : State),
    encode (segCommand k d) = .cmd (BitVec.ofNat 12 (0x800 + k.val * 0x100 + d.toNat)) ∧
    ∃ t, exec (segCommand k d) s = .next t ∧
      t.seg.read k = d ∧ (∀ j, j ≠ k → t.seg.read j = s.seg.read j) ∧
      t = { s with seg := t.seg, rsps := s.rsps ++ [0x000], cmd := none } ∧
      ∀ (ms : List Move) (u : State), (∀ m ∈ ms, isRst m = false ∧ offersSeg k m = false) →
        runMoves ms t = .next u → u.run = true → u.phase.toNat = k.val →
        ∀ rx, ∃ v, applyMove (.complete rx) u = .next v ∧ v.txd = d

/-- R183: WR_SEG with the digit 5, 6 or 7 changes no register and answers 0x200, in every state and
whatever d is. -/
def Obligations.WriteSegOutOfRangeIsRejected : Prop :=
  ∀ (d : Byte) (s : State),
    encode (.wrSegBad5 d) = .cmd (BitVec.ofNat 12 (0xD00 + d.toNat)) ∧
    encode (.wrSegBad6 d) = .cmd (BitVec.ofNat 12 (0xE00 + d.toNat)) ∧
    encode (.wrSegBad7 d) = .cmd (BitVec.ofNat 12 (0xF00 + d.toNat)) ∧
    exec (.wrSegBad5 d) s = .next { s with rsps := s.rsps ++ [0x200], cmd := none } ∧
    exec (.wrSegBad6 d) s = .next { s with rsps := s.rsps ++ [0x200], cmd := none } ∧
    exec (.wrSegBad7 d) s = .next { s with rsps := s.rsps ++ [0x200], cmd := none }

/-- RD_BTN answers STATUS 0 with RDATA the value of BTN, writes no register, and reading again gives the
same answer (R184, R57). -/
def Obligations.ReadButtonsAnswersBtn : Prop :=
  ∀ (x y : Byte) (s : State), ∃ t r, exec (.rdBtn x) s = .next t ∧
    t = { s with rsps := s.rsps ++ [r], cmd := none } ∧ r.toNat = s.btn.toNat ∧
    ∃ u, exec (.rdBtn y) t = .next u ∧ u.rsps = s.rsps ++ [r, r]

/-- R185: the reserved opcodes 0x0 (reserved0) and 0x4 to 0x7 (reserved4to7) change no state and answer
0x100, whatever DATA holds and in every state. -/
def Obligations.ReservedOpcodesAreRejected : Prop :=
  ∀ (d : Byte) (s : State),
    encode (.reserved0 d) = .cmd (cmdWord 0x0 d) ∧
    exec (.reserved0 d) s = .next { s with rsps := s.rsps ++ [0x100], cmd := none } ∧
    ∀ opc : Opc,
      encode (.reserved4to7 opc d) = .cmd (cmdWord opc d) ∧
      exec (.reserved4to7 opc d) s = .next { s with rsps := s.rsps ++ [0x100], cmd := none }

/-- Each command gives exactly one response word, with RDATA the value of BTN and STATUS 0 for RD_BTN and
RDATA 0x00 for every other command (R71). The numeral STATUS * 256 + RDATA is what the two fields
mean, and holds of every word; which STATUS each opcode answers is ErrorIsFixedByTheOpcode. -/
def Obligations.EachCommandGivesOneResponse : Prop :=
  ∀ (i : Instr) (s : State), i.isHostCommand = true →
    ∃ t r, exec i s = .next t ∧ t.rsps = s.rsps ++ [r] ∧ t.cmd = none ∧
      r.toNat = (rspStatus r).toNat * 256 + (rspData r).toNat ∧
      ((∃ x, i = .rdBtn x) → rspData r = s.btn ∧ rspStatus r = 0) ∧
      ((∀ x, i ≠ .rdBtn x) → rspData r = 0x00)

/-- R204: a command answered with a status other than OK changes no register, no transfer in flight and
no wire event: its response is the whole of its effect. -/
def Obligations.RejectedCommandChangesNothing : Prop :=
  ∀ (i : Instr) (s t : State) (r : RspWord), exec i s = .next t → t.rsps = s.rsps ++ [r] →
    rspStatus r ≠ 0 →
    s.SameRegisters t ∧ t.inFlight = s.inFlight ∧ t.wire = s.wire ∧
      t = { s with rsps := s.rsps ++ [r], cmd := none }

/-- Which error a command word can report, by its OPC alone (R205): with bit 3 set OK or 2, with 0x1 OK or
3, with 0x2 and 0x3 OK, with a reserved opcode 1. -/
def Obligations.ErrorIsFixedByTheOpcode : Prop :=
  ∀ (w : CmdWord) (s : State), ∃ t r, exec (decode (.cmd w)) s = .next t ∧ t.rsps = s.rsps ++ [r] ∧
    (8 ≤ (opcOf w).toNat → (opcOf w).toNat ≤ 12 → rspStatus r = 0) ∧
    (13 ≤ (opcOf w).toNat → rspStatus r = 2) ∧
    (opcOf w = 0x1 → rspStatus r = if s.run then 3 else 0) ∧
    (opcOf w = 0x2 ∨ opcOf w = 0x3 → rspStatus r = 0) ∧
    (opcOf w = 0x0 ∨ (4 ≤ (opcOf w).toNat ∧ (opcOf w).toNat ≤ 7) → rspStatus r = 1)

/-- The frame of the 13 host commands (R41, R57, R187): PHASE, BTN, the wire events, the inputs and the
count of free moves stay; LED stays but for WR_LED, SEG but for WR_SEG 0 to 4, TXD and RUN but for
START, and CS too, whose value START leaves in every state of the hardware. -/
def Obligations.HostCommandFrame : Prop :=
  ∀ (i : Instr) (s : State), i.isHostCommand = true → ∃ t, exec i s = .next t ∧
    t.phase = s.phase ∧ t.btn = s.btn ∧ t.wire = s.wire ∧ s.SameEnvironment t ∧
    ((∀ d, i ≠ .wrLed d) → t.led = s.led) ∧
    ((∀ k d, i ≠ segCommand k d) → t.seg = s.seg) ∧
    ((∀ x, i ≠ .start x) → t.txd = s.txd ∧ t.run = s.run ∧ t.cs = s.cs) ∧
    (s.Inv → t.cs = s.cs)

/-! ## The sequencer -/

/-- R123: PH0, selected by PHASE = 0, stores the received byte in BTN and queues SEG[0] in one event,
and PHASE becomes 1; nothing else changes. -/
def Obligations.PhaseZeroLatchesButtonsAndQueuesDigitZero : Prop :=
  ∀ (rx : Byte) (s : State), decode (.seq 0b000 rx) = .ph0 rx ∧
    (s.phase = 0 →
      exec (.ph0 rx) s = .next { s with btn := rx, txd := s.seg.s0, phase := 1 })

/-- R124 to R127: PH1 to PH4, selected by PHASE = 1 to 4, queue SEG[1] to SEG[4]; PHASE becomes 2 to 5;
the received byte has no effect and nothing else changes. -/
def Obligations.PhasesOneToFourQueueTheirDigits : Prop :=
  ∀ (rx : Byte) (s : State),
    (decode (.seq 0b001 rx) = .ph1 rx ∧ decode (.seq 0b010 rx) = .ph2 rx ∧
      decode (.seq 0b011 rx) = .ph3 rx ∧ decode (.seq 0b100 rx) = .ph4 rx) ∧
    (s.phase = 1 → exec (.ph1 rx) s = .next { s with txd := s.seg.s1, phase := 2 }) ∧
    (s.phase = 2 → exec (.ph2 rx) s = .next { s with txd := s.seg.s2, phase := 3 }) ∧
    (s.phase = 3 → exec (.ph3 rx) s = .next { s with txd := s.seg.s3, phase := 4 }) ∧
    (s.phase = 4 → exec (.ph4 rx) s = .next { s with txd := s.seg.s4, phase := 5 })

/-- R128: PH5, selected by PHASE = 5, drives CS to 0 and queues LED; PHASE becomes 6; the next transfer
runs with CS = 0; in every state of the hardware CS was 1, so this is a falling edge. -/
def Obligations.PhaseFiveEndsTheSweep : Prop :=
  ∀ (rx : Byte) (s : State), decode (.seq 0b101 rx) = .ph5 rx ∧
    (s.phase = 5 → ∃ t, exec (.ph5 rx) s = .next t ∧
      t = { s with cs := false, txd := s.led, phase := 6 } ∧
      (s.run = true → t.inFlight = some ⟨false, s.led⟩) ∧ (s.Inv → s.cs = true))

/-- R129: PH6, selected by PHASE = 6, drives CS to 1 and queues LED, sampled again; PHASE becomes 0; in
every state of the hardware CS was 0, so this is a rising edge. -/
def Obligations.PhaseSixStartsTheNextSweep : Prop :=
  ∀ (rx : Byte) (s : State), decode (.seq 0b110 rx) = .ph6 rx ∧
    (s.phase = 6 → ∃ t, exec (.ph6 rx) s = .next t ∧
      t = { s with cs := true, txd := s.led, phase := 0 } ∧
      (s.run = true → t.inFlight = some ⟨true, s.led⟩) ∧ (s.Inv → s.cs = false))

/-- R130: PHASE = 7 selects no action (the row PH7) and a completion that finds it raises the model
fault; no operation that finds another value produces 7. -/
def Obligations.PhaseSevenIsTheModelFault : Prop :=
  (∀ (rx : Byte) (s : State), decode (.seq 0b111 rx) = .ph7 rx ∧
    exec (.ph7 rx) s = .fault .phaseOutOfRange ∧
    (s.run = true → s.phase = 7 → applyMove (.complete rx) s = .fault .phaseOutOfRange)) ∧
  ∀ (i : Instr) (s t : State), s.phase ≠ 7 → exec i s = .next t → t.phase ≠ 7

/-- The frame of the sequencer's actions (R41, R122 to R129), in every state with PHASE legal; that an
action also runs, and advances PHASE, where PHASE is not its own is the model's choice (log 8). LED, SEG, RUN, the outstanding command, the
responses, the wire events, the inputs and the count of free moves stay; BTN stays but for PH0, CS
but for PH5 and PH6; PHASE advances by 1 modulo 7. -/
def Obligations.SequencerActionFrame : Prop :=
  ∀ (i : Instr) (s : State), i.isHostCommand = false → (∀ rx, i ≠ .ph7 rx) → s.phase ≠ 7 →
    ∃ t, exec i s = .next t ∧
      t.led = s.led ∧ t.seg = s.seg ∧ t.run = s.run ∧ t.cmd = s.cmd ∧ t.rsps = s.rsps ∧
      t.wire = s.wire ∧ s.SameEnvironment t ∧ t.phase.toNat = (s.phase.toNat + 1) % 7 ∧
      ((∀ rx, i ≠ .ph0 rx) → t.btn = s.btn) ∧
      ((∀ rx, i ≠ .ph5 rx ∧ i ≠ .ph6 rx) → t.cs = s.cs)

/-- R131: the received byte is consumed in phase 0 alone: from one state two completions with different
received bytes in phases 1 to 6 give the same state, but for the wire event's record of the byte. -/
def Obligations.ReceivedByteIsIgnoredInPhasesOneToSix : Prop :=
  ∀ (s : State) (rx rx' : Byte), s.phase ≠ 0 → s.phase ≠ 7 →
    ∃ t t', applyMove (.complete rx) s = .next t ∧ applyMove (.complete rx') s = .next t' ∧
      { t' with wire := t.wire } = t

/-- After N completions from PHASE = 0, PHASE = N mod 7, for every N (R134). -/
def Obligations.PhaseCountsCompletionsModuloSeven : Prop :=
  ∀ (rxs : List Byte) (s : State), s.run = true → s.phase = 0 →
    ∃ t, runMoves (rxs.map Move.complete) s = .next t ∧ t.phase.toNat = rxs.length % 7

/-- A sweep: seven completions from PHASE = 0 queue SEG[0] to SEG[4], LED, LED in that order, BTN ends
equal to the first received byte and PHASE at 0 (R135). -/
def Obligations.SweepQueuesTheFrameThenLedTwice : Prop :=
  ∀ (s : State) (a b c d e f g : Byte), s.run = true → s.phase = 0 →
    ∃ t1 t2 t3 t4 t5 t6 t7,
      applyMove (.complete a) s = .next t1 ∧ t1.txd = s.seg.s0 ∧
      applyMove (.complete b) t1 = .next t2 ∧ t2.txd = s.seg.s1 ∧
      applyMove (.complete c) t2 = .next t3 ∧ t3.txd = s.seg.s2 ∧
      applyMove (.complete d) t3 = .next t4 ∧ t4.txd = s.seg.s3 ∧
      applyMove (.complete e) t4 = .next t5 ∧ t5.txd = s.seg.s4 ∧
      applyMove (.complete f) t5 = .next t6 ∧ t6.txd = s.led ∧
      applyMove (.complete g) t6 = .next t7 ∧ t7.txd = s.led ∧
      t7.btn = a ∧ t7.phase = 0

/-- The framing law: of the steps counted from PHASE = 0 those with index 5 modulo 7 write CS to 0, those
with index 6 write it to 1, and no other step writes CS, for every sweep (R136). -/
def Obligations.FramingRepeatsEverySweep : Prop :=
  ∀ (rxs : List Byte) (rx : Byte) (s : State), s.run = true → s.phase = 0 →
    ∃ t u, runMoves (rxs.map Move.complete) s = .next t ∧ applyMove (.complete rx) t = .next u ∧
      (rxs.length % 7 = 5 → u.cs = false) ∧ (rxs.length % 7 = 6 → u.cs = true) ∧
      (rxs.length % 7 < 5 → u.cs = t.cs)

/-! ## The bus driver and the wire -/

/-- The wire view: from START on, with the registers left alone, transfer n shifts out LED for n = 0, then
SEG[0] to SEG[4], LED, LED in turn, with CS = 0 exactly for n mod 7 = 6, for every n (R159; that State records the events is log 4). -/
def Obligations.WireCarriesTheSweepFromStartOn : Prop :=
  ∀ (x : Byte) (rxs : List Byte) (s : State), s.Inv → s.run = false →
    ∃ t u, exec (.start x) s = .next t ∧ runMoves (rxs.map Move.complete) t = .next u ∧
      u.wire = s.wire ++ wireView s 0 rxs

/-- Whatever the host does in between, every order of events without a reset that begins in a running
state at PHASE = 0 emits one wire event per completion, with CS = 0 exactly for those whose index
is 6 modulo 7, and PHASE counts the completions modulo 7: no command stalls, skips or repeats a
step (R161, R186; the record of the events is log 4). -/
def Obligations.HostCannotDisturbTheFraming : Prop :=
  ∀ (ms : List Move) (s : State), s.Inv → s.run = true → s.phase = 0 →
    (∀ m ∈ ms, isRst m = false) →
    ∃ t evs, runMoves ms s = .next t ∧ t.wire = s.wire ++ evs ∧ evs.length = completions ms ∧
      (∀ n e, evs[n]? = some e → e.cs = wireCs n) ∧
      t.phase.toNat = completions ms % 7

/-- While a transfer is in flight its completion emits the wire event of the level CS, the byte TXD and the
byte received, and runs the step PHASE selects in the same event; another transfer is then in flight
(R154, R35). The model's choices here: the wire events are kept in a list of State (log 4), and a
completion offered with RUN = 0 is a move that changes nothing (log 14). -/
def Obligations.CompletionEmitsOneWireEvent : Prop :=
  ∀ (rx : Byte) (s : State),
    (s.run = true → applyMove (.complete rx) s =
      exec (decode (.seq s.phase rx)) { s with wire := s.wire ++ [⟨s.cs, s.txd, rx⟩] }) ∧
    (s.run = false → applyMove (.complete rx) s = .next s) ∧
    (s.run = true → s.phase ≠ 7 → ∃ t, applyMove (.complete rx) s = .next t ∧
      t.wire = s.wire ++ [⟨s.cs, s.txd, rx⟩] ∧ t.inFlight = some ⟨t.cs, t.txd⟩)

/-- Every wire event is of the transfer that was in flight, and nothing is ever taken off the wire: one
step adds no event or exactly the one of its completion (R154, R155, R163; the record is log 4). -/
def Obligations.WireOnlyGrowsByTheTransferInFlight : Prop :=
  ∀ s t : State, step s = .next t →
    t.wire = s.wire ∨
    ∃ rx fl, s.inFlight = some fl ∧ s.nextMove = .complete rx ∧
      t.wire = s.wire ++ [⟨fl.cs, fl.mosi, rx⟩]

/-- Progress under a fair order: when the decided inputs hold a completion and no reset before it, the
transfer in flight completes within two steps for each input before it and one more (R162; that the
inputs are a list of moves is log 3). Without that premise: EveryTransferEndsUnlessReset. -/
def Obligations.TransferInFlightCompletes : Prop :=
  ∀ (pre rest : List Move) (rx : Byte) (s : State), s.Inv → s.run = true →
    s.inputs = pre ++ .complete rx :: rest → (∀ m ∈ pre, isRst m = false) →
    ∃ k t, k ≤ 2 * pre.length + 1 ∧ stepN k s = .next t ∧ s.wire.length < t.wire.length

/-! ## The step -/

/-- A step runs the decoded command: when the execution of the outstanding command comes next, step is
exec of what its word decodes to, with that input taken (R180; log 3, log 5). -/
def Obligations.StepExecutesTheOutstandingCommand : Prop :=
  ∀ (s : State) (w : CmdWord) (rest : List Move), s.cmd = some w → s.inputs = .execute :: rest →
    step s = exec (decode (.cmd w)) { s with inputs := rest }

/-- A step runs the selected action: when a completion comes next and RUN = 1, step is exec of the action
PHASE selects, after the wire event, with that input taken (R122, R154; log 3). -/
def Obligations.StepRunsTheActionPhaseSelects : Prop :=
  ∀ (s : State) (rx : Byte) (rest : List Move), s.run = true → s.inputs = .complete rx :: rest →
    step s = exec (decode (.seq s.phase rx))
      { s with inputs := rest, wire := s.wire ++ [⟨s.cs, s.txd, rx⟩] }

/-- The handshake of the command port: with none outstanding the command offered is accepted; with one
outstanding the host waits, its command stays offered, and the outstanding one is executed (R180;
log 5). -/
def Obligations.CommandPortTakesOneCommandAtATime : Prop :=
  ∀ (s : State) (w : CmdWord) (rest : List Move), s.inputs = .host w :: rest →
    (s.cmd = none → step s = .next { s with cmd := some w, inputs := rest }) ∧
    (∀ v, s.cmd = some v → step s = exec (decode (.cmd v)) s)

/-- Before START no completion happens (R120, R158, R232). The model's choice, which the rules do not give:
a completion offered there is a move that changes nothing (log 14), and the step takes it off the list
of inputs (log 3). -/
def Obligations.NothingCompletesBeforeStart : Prop :=
  ∀ (s : State) (rx : Byte) (rest : List Move), s.run = false → s.inputs = .complete rx :: rest →
    step s = .next { s with inputs := rest }

/-- Where no input is decided, the step is that of the state with the free stretch of this draw decided:
any finite list of moves, then a completion with any byte (R58, R209; the form is the model's choice,
log 2 and log 13). -/
def Obligations.UndecidedEventsAreFree : Prop :=
  ∀ s : State, s.inputs = [] →
    step s = step { s with
      inputs := (Config.schedule s.drawn).before ++ [.complete (Config.schedule s.drawn).rx],
      drawn := s.drawn + 1 }

/-- Reset: every register takes its reset value, the transfer in flight and the unanswered command are
abandoned, and no wire event and no response is recorded for them (R230; that the earlier ones stay
on record is log 4). -/
def Obligations.ResetAbandonsEverything : Prop :=
  ∀ (s : State) (rest : List Move), s.inputs = .rst :: rest → ∃ t, step s = .next t ∧
    t.led = 0x00 ∧ t.btn = 0x00 ∧ (∀ k, t.seg.read k = 0x00) ∧ t.txd = 0x00 ∧ t.phase = 0 ∧
    t.run = false ∧ t.cs = true ∧ t.inFlight = none ∧ t.cmd = none ∧
    t.wire = s.wire ∧ t.rsps = s.rsps ∧ t.inputs = rest ∧ t.drawn = s.drawn

/-- The clean reset state (R20, R243): every register at its reset value, no transfer in flight, no
command outstanding, no wire event emitted. -/
def Obligations.CleanResetState : Prop :=
  State.reset.led = 0x00 ∧ State.reset.btn = 0x00 ∧ (∀ k, State.reset.seg.read k = 0x00) ∧
  State.reset.phase = 0 ∧ State.reset.cs = true ∧ State.reset.run = false ∧
  State.reset.txd = 0x00 ∧ State.reset.inFlight = none ∧ State.reset.cmd = none ∧
  State.reset.wire = []

/-- An opcode-table word of a command, placed, is what the next step runs (log 3, log 7). -/
def Obligations.PlacedCommandRunsNext : Prop :=
  ∀ (s : State) (w : CmdWord),
    step (s.withFetchWord 16 w.toNat) = exec (decode (.cmd w)) { s with cmd := some w }

/-! ## Invariants and whole-machine rules -/

/-- Every step keeps the invariant of the hardware's states: PHASE legal, CS = 0 if and only if PHASE = 6,
and PHASE = 0 before START (R28, R37, R38). -/
def Obligations.StepKeepsTheHardwareStates : Prop :=
  ∀ s t : State, s.Inv → step s = .next t → t.Inv

/-- The invariant holds at reset (R27, R31, R32). -/
def Obligations.ResetIsAHardwareState : Prop :=
  State.reset.Inv

/-- In a state of the hardware every step answers a next state: the model fault is not reached and no
command or event is refused (R211, R186). -/
def Obligations.HardwareStatesNeverFault : Prop :=
  ∀ s : State, s.Inv → ∃ t, step s = .next t

/-- RUN is set only by START and cleared only by reset (R32, R231). -/
def Obligations.RunChangesOnlyByStartAndReset : Prop :=
  ∀ s t : State, step s = .next t → t.run ≠ s.run →
    (s.run = true ∧ s.nextMove = .rst) ∨
    (s.run = false ∧ s.nextMove = .execute ∧
      ∃ w x, s.cmd = some w ∧ decode (.cmd w) = .start x)

/-- BTN changes only by reset and by the completion in phase 0, which stores the received byte (R22, R36,
R237). -/
def Obligations.ButtonsChangeOnlyInPhaseZero : Prop :=
  ∀ s t : State, step s = .next t → t.btn ≠ s.btn →
    s.nextMove = .rst ∨ ∃ rx, s.nextMove = .complete rx ∧ s.run = true ∧ s.phase = 0 ∧ t.btn = rx

/-- CS changes only by reset and by the completions in phases 5 and 6 (R30, R155); in a state that is no
hardware state START could change it, hence the premise. -/
def Obligations.FramingLineChangesOnlyInPhasesFiveAndSix : Prop :=
  ∀ s t : State, s.Inv → step s = .next t → t.cs ≠ s.cs →
    s.nextMove = .rst ∨
    ∃ rx, s.nextMove = .complete rx ∧ s.run = true ∧
      (s.phase = 5 ∧ t.cs = false ∨ s.phase = 6 ∧ t.cs = true)

/-- PHASE changes only by reset and by completions, each of which advances it by one modulo 7 (R26, R38). -/
def Obligations.PhaseChangesOnlyByCompletions : Prop :=
  ∀ s t : State, step s = .next t → t.phase ≠ s.phase →
    s.nextMove = .rst ∨
    ∃ rx, s.nextMove = .complete rx ∧ s.run = true ∧ t.phase.toNat = (s.phase.toNat + 1) % 7

/-- LED changes only by reset and by a WR_LED, which stores its byte (R21, R57). -/
def Obligations.LedChangesOnlyByWriteLed : Prop :=
  ∀ s t : State, step s = .next t → t.led ≠ s.led →
    s.nextMove = .rst ∨
    (s.nextMove = .execute ∧ ∃ w d, s.cmd = some w ∧ decode (.cmd w) = .wrLed d ∧ t.led = d)

/-- SEG[k] changes only by reset and by a WR_SEG k, which stores its byte (R23, R57). -/
def Obligations.DigitChangesOnlyByItsWriteSeg : Prop :=
  ∀ (k : Digit) (s t : State), step s = .next t → t.seg.read k ≠ s.seg.read k →
    s.nextMove = .rst ∨
    (s.nextMove = .execute ∧
      ∃ w d, s.cmd = some w ∧ decode (.cmd w) = segCommand k d ∧ t.seg.read k = d)

/-- TXD holds a sample: it changes only by reset, by START and by completions, so no write of LED or SEG
reaches a byte already queued (R34, R60). -/
def Obligations.QueuedByteIsASample : Prop :=
  ∀ s t : State, step s = .next t → t.txd ≠ s.txd →
    s.nextMove = .rst ∨ (∃ rx, s.nextMove = .complete rx ∧ s.run = true) ∨
    (s.nextMove = .execute ∧ ∃ w x, s.cmd = some w ∧ decode (.cmd w) = .start x)

/-! ## Order of host writes and sequencer steps -/

/-- The LED double sample: a WR_LED between PH5 and PH6 leaves the byte PH5 queued and is queued by PH6, so
the two LED transfers of the sweep carry different bytes (R129, R235). -/
def Obligations.LedIsSampledTwicePerSweep : Prop :=
  ∀ (s : State) (a b d : Byte), s.run = true → s.phase = 5 →
    ∃ t u v, applyMove (.complete a) s = .next t ∧ exec (.wrLed d) t = .next u ∧
      applyMove (.complete b) u = .next v ∧
      v.wire = s.wire ++ [⟨s.cs, s.txd, a⟩, ⟨false, s.led, b⟩] ∧ v.inFlight = some ⟨true, d⟩

/-! ## Companions on the host's side and at bit level -/

/-- R102: the encoder's result, for every table, every glyph code and both values of the decimal point. -/
def Obligations.SegmentEncoderResult : Prop :=
  ∀ (table : Glyph → BitVec 7) (g : Byte) (dp : Bool),
    (g = 0x20 → encodeGlyphWith table g dp = 0x00) ∧
    (g ∉ ([0x30, 0x31, 0x32, 0x33, 0x34, 0x35, 0x36, 0x37, 0x38, 0x39, 0x48, 0x45, 0x4C, 0x72,
        0x6F] : List Byte) → encodeGlyphWith table g dp = 0x00) ∧
    (∀ gl, (g, gl) ∈ ([(0x30, .d0), (0x31, .d1), (0x32, .d2), (0x33, .d3), (0x34, .d4), (0x35, .d5),
        (0x36, .d6), (0x37, .d7), (0x38, .d8), (0x39, .d9), (0x48, .capH), (0x45, .capE),
        (0x4C, .capL), (0x72, .smallR), (0x6F, .smallO)] : List (Byte × Glyph)) →
      (encodeGlyphWith table g dp).toNat = (if dp then 128 else 0) + (table gl).toNat)

/-- R103: "clear" ignores the decimal point and gives the all-off byte. -/
def Obligations.ClearIsAlwaysBlank : Prop :=
  encodeGlyph clearCode false = 0x00 ∧ encodeGlyph clearCode true = 0x00

/-- The bits of a byte put on the wire give the byte back at the far end, in either bit order, and the
first of the 8 bits is bit 7 with MSB_FIRST and bit 0 with LSB_FIRST (R156). -/
def Obligations.BitOrderRoundTrip : Prop :=
  ∀ b : Byte,
    (∀ o, byteIn o (bitsOut o b) = b) ∧ (∀ o, (bitsOut o b).length = 8) ∧
    (∀ i, i < 8 → (bitsOut .msbFirst b)[i]? = some (b.getLsbD (7 - i))) ∧
    (∀ i, i < 8 → (bitsOut .lsbFirst b)[i]? = some (b.getLsbD i))

/-- The assembler's words decode to the commands they are written for, and a digit above 4 is refused
(R82). -/
def Obligations.AssembledLinesDecode : Prop :=
  ∀ table : Glyph → BitVec 7,
    assemble table .start = some [0x100] ∧ decode (.cmd 0x100) = .start 0 ∧
    assemble table .rdBtn = some [0x300] ∧ decode (.cmd 0x300) = .rdBtn 0 ∧
    (∀ d : Byte, ∃ w, assemble table (.wrLed d.toNat) = some [w] ∧ decode (.cmd w) = .wrLed d) ∧
    (∀ (k : Digit) (d : Byte), ∃ w, assemble table (.wrSeg k.val d.toNat) = some [w] ∧
      decode (.cmd w) = segCommand k d) ∧
    (∀ k d, 4 < k → assemble table (.wrSeg k d) = none)

/-! ## Progress of the serial engine -/

/-- A transfer in flight is abandoned by reset alone: a reset takes it off without a wire event, a
completion emits its event and leaves another in flight, and under every other move it stays in
flight with its level and its byte (R162, R230, R155; the record of the events is log 4). -/
def Obligations.OnlyResetAbandonsATransfer : Prop :=
  ∀ (s t : State) (fl : InFlight), s.inFlight = some fl → step s = .next t →
    (s.nextMove = .rst → t.inFlight = none ∧ t.wire = s.wire) ∧
    (∀ rx, s.nextMove = .complete rx →
      t.wire = s.wire ++ [⟨fl.cs, fl.mosi, rx⟩] ∧ t.inFlight = some ⟨t.cs, t.txd⟩) ∧
    (s.nextMove ≠ .rst → (∀ rx, s.nextMove ≠ .complete rx) →
      t.inFlight = some fl ∧ t.wire = s.wire)

/-- Weak fairness: from every state of the hardware with a transfer in flight, whatever inputs are decided
and whatever the free order is, the run comes to a state in which that transfer is still in flight
with no event emitted in between, and in which it completes, emitting its event, or a reset abandons
it; the statement gives no bound on the steps (R162; that the free order is made of stretches that end in a
completion is log 13, the record of the events log 4). -/
def Obligations.EveryTransferEndsUnlessReset : Prop :=
  ∀ (s : State) (fl : InFlight), s.Inv → s.inFlight = some fl →
    ∃ k u, stepN k s = .next u ∧ u.inFlight = some fl ∧ u.wire = s.wire ∧
      (u.nextMove = .rst ∨
        ∃ rx t, u.nextMove = .complete rx ∧ step u = .next t ∧
          t.wire = s.wire ++ [⟨fl.cs, fl.mosi, rx⟩])
end

