-- ==== Sys2Proof/Laws/Decode.lean ====
section
/-! SUPPORT. The fields of a command word, and that decoding gives well-formed instructions. -/

namespace Sys2Proof

@[simp] theorem opcOf_cmdWord (opc : Opc) (d : Byte) : opcOf (cmdWord opc d) = opc := by
  apply BitVec.eq_of_getLsbD_eq
  intro i hi
  simp only [opcOf, cmdWord, BitVec.getLsbD_extractLsb', BitVec.getLsbD_append]
  simp [hi]

@[simp] theorem dataOf_cmdWord (opc : Opc) (d : Byte) : dataOf (cmdWord opc d) = d := by
  apply BitVec.eq_of_getLsbD_eq
  intro i hi
  simp only [dataOf, cmdWord, BitVec.getLsbD_extractLsb', BitVec.getLsbD_append]
  simp [hi]

/-- A command word is its two fields and nothing else (R70). -/
theorem cmdWord_fields (w : CmdWord) : cmdWord (opcOf w) (dataOf w) = w := by
  apply BitVec.eq_of_getLsbD_eq
  intro i hi
  simp only [cmdWord, opcOf, dataOf, BitVec.getLsbD_append, BitVec.getLsbD_extractLsb']
  split
  · simp_all
  · have : i - 8 < 4 := by omega
    simp [this]
    congr 1
    omega

/-- A command word as a number: `OPC * 0x100 + DATA` (R82). -/
theorem cmdWord_toNat (opc : Opc) (d : Byte) :
    (cmdWord opc d).toNat = opc.toNat * 256 + d.toNat := by
  have h : (cmdWord opc d).toNat = opc.toNat <<< 8 ||| d.toNat := BitVec.toNat_append opc d
  rw [h, ← Nat.shiftLeft_add_eq_or_of_lt d.isLt, Nat.shiftLeft_eq]

/-- The opcodes the decoder sends to `reserved4to7` are those of its row. -/
theorem reserved_of_not_other (opc : Opc) (h3 : opc.getLsbD 3 = false) (h0 : opc ≠ 0x0)
    (h1 : opc ≠ 0x1) (h2 : opc ≠ 0x2) (hb : opc ≠ 0x3) : isReserved4to7 opc = true := by
  revert opc
  decide

/-- Decoding gives a well-formed instruction, whatever is decoded. -/
theorem decode_wellFormed (x : Selector) : (decode x).wellFormed = true := by
  cases x with
  | cmd w =>
    simp only [decode, decodeCmd]
    split
    · unfold decodeWrSeg
      repeat' split
      all_goals rfl
    · repeat' split
      all_goals first | rfl | skip
      rename_i h3 h1 h2 hb h0
      exact reserved_of_not_other _ (Bool.eq_false_iff.mpr h3) h0 h1 h2 hb
  | seq p rx =>
    simp only [decode, decodePhase]
    repeat' split
    all_goals rfl

/-- A command word decodes to a host command. -/
theorem decodeCmd_isHostCommand (w : CmdWord) : (decodeCmd w).isHostCommand = true := by
  unfold decodeCmd
  split
  · unfold decodeWrSeg
    repeat' split
    all_goals rfl
  · repeat' split
    all_goals rfl

/-- A value of PHASE decodes to an action of the sequencer. -/
theorem decodePhase_not_isHostCommand (p : PhaseVal) (rx : Byte) :
    (decodePhase p rx).isHostCommand = false := by
  unfold decodePhase
  repeat' split
  all_goals rfl

end Sys2Proof
end

