-- ==== Sys2Proof/Laws/State.lean ====
section
/-! SUPPORT. What each update of State does to each field: one lemma per field and update, so that no proof
unfolds a record update. -/

namespace Sys2Proof.Machine

/-! Fields after LED <- d. -/

@[simp] theorem State.setLed_led (s : State) (d : Byte) : (s.setLed d).led = d := rfl
@[simp] theorem State.setLed_btn (s : State) (d : Byte) : (s.setLed d).btn = s.btn := rfl
@[simp] theorem State.setLed_seg (s : State) (d : Byte) : (s.setLed d).seg = s.seg := rfl
@[simp] theorem State.setLed_phase (s : State) (d : Byte) : (s.setLed d).phase = s.phase := rfl
@[simp] theorem State.setLed_cs (s : State) (d : Byte) : (s.setLed d).cs = s.cs := rfl
@[simp] theorem State.setLed_run (s : State) (d : Byte) : (s.setLed d).run = s.run := rfl
@[simp] theorem State.setLed_txd (s : State) (d : Byte) : (s.setLed d).txd = s.txd := rfl
@[simp] theorem State.setLed_cmd (s : State) (d : Byte) : (s.setLed d).cmd = s.cmd := rfl
@[simp] theorem State.setLed_rsps (s : State) (d : Byte) : (s.setLed d).rsps = s.rsps := rfl
@[simp] theorem State.setLed_wire (s : State) (d : Byte) : (s.setLed d).wire = s.wire := rfl
@[simp] theorem State.setLed_inputs (s : State) (d : Byte) : (s.setLed d).inputs = s.inputs := rfl
@[simp] theorem State.setLed_drawn (s : State) (d : Byte) : (s.setLed d).drawn = s.drawn := rfl

/-! Fields after BTN <- d. -/

@[simp] theorem State.setBtn_led (s : State) (d : Byte) : (s.setBtn d).led = s.led := rfl
@[simp] theorem State.setBtn_btn (s : State) (d : Byte) : (s.setBtn d).btn = d := rfl
@[simp] theorem State.setBtn_seg (s : State) (d : Byte) : (s.setBtn d).seg = s.seg := rfl
@[simp] theorem State.setBtn_phase (s : State) (d : Byte) : (s.setBtn d).phase = s.phase := rfl
@[simp] theorem State.setBtn_cs (s : State) (d : Byte) : (s.setBtn d).cs = s.cs := rfl
@[simp] theorem State.setBtn_run (s : State) (d : Byte) : (s.setBtn d).run = s.run := rfl
@[simp] theorem State.setBtn_txd (s : State) (d : Byte) : (s.setBtn d).txd = s.txd := rfl
@[simp] theorem State.setBtn_cmd (s : State) (d : Byte) : (s.setBtn d).cmd = s.cmd := rfl
@[simp] theorem State.setBtn_rsps (s : State) (d : Byte) : (s.setBtn d).rsps = s.rsps := rfl
@[simp] theorem State.setBtn_wire (s : State) (d : Byte) : (s.setBtn d).wire = s.wire := rfl
@[simp] theorem State.setBtn_inputs (s : State) (d : Byte) : (s.setBtn d).inputs = s.inputs := rfl
@[simp] theorem State.setBtn_drawn (s : State) (d : Byte) : (s.setBtn d).drawn = s.drawn := rfl

/-! Fields after SEG[k] <- d. -/

@[simp] theorem State.setSeg_led (s : State) (k : Digit) (d : Byte) : (s.setSeg k d).led = s.led :=
  rfl
@[simp] theorem State.setSeg_btn (s : State) (k : Digit) (d : Byte) : (s.setSeg k d).btn = s.btn :=
  rfl
@[simp] theorem State.setSeg_seg (s : State) (k : Digit) (d : Byte) : (s.setSeg k d).seg = s.seg.write k d :=
  rfl
@[simp] theorem State.setSeg_phase (s : State) (k : Digit) (d : Byte) : (s.setSeg k d).phase = s.phase :=
  rfl
@[simp] theorem State.setSeg_cs (s : State) (k : Digit) (d : Byte) : (s.setSeg k d).cs = s.cs := rfl
@[simp] theorem State.setSeg_run (s : State) (k : Digit) (d : Byte) : (s.setSeg k d).run = s.run :=
  rfl
@[simp] theorem State.setSeg_txd (s : State) (k : Digit) (d : Byte) : (s.setSeg k d).txd = s.txd :=
  rfl
@[simp] theorem State.setSeg_cmd (s : State) (k : Digit) (d : Byte) : (s.setSeg k d).cmd = s.cmd :=
  rfl
@[simp] theorem State.setSeg_rsps (s : State) (k : Digit) (d : Byte) : (s.setSeg k d).rsps = s.rsps :=
  rfl
@[simp] theorem State.setSeg_wire (s : State) (k : Digit) (d : Byte) : (s.setSeg k d).wire = s.wire :=
  rfl
@[simp] theorem State.setSeg_inputs (s : State) (k : Digit) (d : Byte) : (s.setSeg k d).inputs = s.inputs :=
  rfl
@[simp] theorem State.setSeg_drawn (s : State) (k : Digit) (d : Byte) : (s.setSeg k d).drawn = s.drawn :=
  rfl

/-! Fields after PHASE <- p. -/

@[simp] theorem State.setPhase_led (s : State) (p : PhaseVal) : (s.setPhase p).led = s.led := rfl
@[simp] theorem State.setPhase_btn (s : State) (p : PhaseVal) : (s.setPhase p).btn = s.btn := rfl
@[simp] theorem State.setPhase_seg (s : State) (p : PhaseVal) : (s.setPhase p).seg = s.seg := rfl
@[simp] theorem State.setPhase_phase (s : State) (p : PhaseVal) : (s.setPhase p).phase = p := rfl
@[simp] theorem State.setPhase_cs (s : State) (p : PhaseVal) : (s.setPhase p).cs = s.cs := rfl
@[simp] theorem State.setPhase_run (s : State) (p : PhaseVal) : (s.setPhase p).run = s.run := rfl
@[simp] theorem State.setPhase_txd (s : State) (p : PhaseVal) : (s.setPhase p).txd = s.txd := rfl
@[simp] theorem State.setPhase_cmd (s : State) (p : PhaseVal) : (s.setPhase p).cmd = s.cmd := rfl
@[simp] theorem State.setPhase_rsps (s : State) (p : PhaseVal) : (s.setPhase p).rsps = s.rsps := rfl
@[simp] theorem State.setPhase_wire (s : State) (p : PhaseVal) : (s.setPhase p).wire = s.wire := rfl
@[simp] theorem State.setPhase_inputs (s : State) (p : PhaseVal) : (s.setPhase p).inputs = s.inputs :=
  rfl
@[simp] theorem State.setPhase_drawn (s : State) (p : PhaseVal) : (s.setPhase p).drawn = s.drawn :=
  rfl

/-! Fields after CS <- b. -/

@[simp] theorem State.setCs_led (s : State) (b : Bool) : (s.setCs b).led = s.led := rfl
@[simp] theorem State.setCs_btn (s : State) (b : Bool) : (s.setCs b).btn = s.btn := rfl
@[simp] theorem State.setCs_seg (s : State) (b : Bool) : (s.setCs b).seg = s.seg := rfl
@[simp] theorem State.setCs_phase (s : State) (b : Bool) : (s.setCs b).phase = s.phase := rfl
@[simp] theorem State.setCs_cs (s : State) (b : Bool) : (s.setCs b).cs = b := rfl
@[simp] theorem State.setCs_run (s : State) (b : Bool) : (s.setCs b).run = s.run := rfl
@[simp] theorem State.setCs_txd (s : State) (b : Bool) : (s.setCs b).txd = s.txd := rfl
@[simp] theorem State.setCs_cmd (s : State) (b : Bool) : (s.setCs b).cmd = s.cmd := rfl
@[simp] theorem State.setCs_rsps (s : State) (b : Bool) : (s.setCs b).rsps = s.rsps := rfl
@[simp] theorem State.setCs_wire (s : State) (b : Bool) : (s.setCs b).wire = s.wire := rfl
@[simp] theorem State.setCs_inputs (s : State) (b : Bool) : (s.setCs b).inputs = s.inputs := rfl
@[simp] theorem State.setCs_drawn (s : State) (b : Bool) : (s.setCs b).drawn = s.drawn := rfl

/-! Fields after RUN <- 1. -/

@[simp] theorem State.setRun_led (s : State) : (s.setRun).led = s.led := rfl
@[simp] theorem State.setRun_btn (s : State) : (s.setRun).btn = s.btn := rfl
@[simp] theorem State.setRun_seg (s : State) : (s.setRun).seg = s.seg := rfl
@[simp] theorem State.setRun_phase (s : State) : (s.setRun).phase = s.phase := rfl
@[simp] theorem State.setRun_cs (s : State) : (s.setRun).cs = s.cs := rfl
@[simp] theorem State.setRun_run (s : State) : (s.setRun).run = true := rfl
@[simp] theorem State.setRun_txd (s : State) : (s.setRun).txd = s.txd := rfl
@[simp] theorem State.setRun_cmd (s : State) : (s.setRun).cmd = s.cmd := rfl
@[simp] theorem State.setRun_rsps (s : State) : (s.setRun).rsps = s.rsps := rfl
@[simp] theorem State.setRun_wire (s : State) : (s.setRun).wire = s.wire := rfl
@[simp] theorem State.setRun_inputs (s : State) : (s.setRun).inputs = s.inputs := rfl
@[simp] theorem State.setRun_drawn (s : State) : (s.setRun).drawn = s.drawn := rfl

/-! Fields after TXD <- b. -/

@[simp] theorem State.queue_led (s : State) (b : Byte) : (s.queue b).led = s.led := rfl
@[simp] theorem State.queue_btn (s : State) (b : Byte) : (s.queue b).btn = s.btn := rfl
@[simp] theorem State.queue_seg (s : State) (b : Byte) : (s.queue b).seg = s.seg := rfl
@[simp] theorem State.queue_phase (s : State) (b : Byte) : (s.queue b).phase = s.phase := rfl
@[simp] theorem State.queue_cs (s : State) (b : Byte) : (s.queue b).cs = s.cs := rfl
@[simp] theorem State.queue_run (s : State) (b : Byte) : (s.queue b).run = s.run := rfl
@[simp] theorem State.queue_txd (s : State) (b : Byte) : (s.queue b).txd = b := rfl
@[simp] theorem State.queue_cmd (s : State) (b : Byte) : (s.queue b).cmd = s.cmd := rfl
@[simp] theorem State.queue_rsps (s : State) (b : Byte) : (s.queue b).rsps = s.rsps := rfl
@[simp] theorem State.queue_wire (s : State) (b : Byte) : (s.queue b).wire = s.wire := rfl
@[simp] theorem State.queue_inputs (s : State) (b : Byte) : (s.queue b).inputs = s.inputs := rfl
@[simp] theorem State.queue_drawn (s : State) (b : Byte) : (s.queue b).drawn = s.drawn := rfl

/-! Fields after a wire event. -/

@[simp] theorem State.emit_led (s : State) (e : WireEvent) : (s.emit e).led = s.led := rfl
@[simp] theorem State.emit_btn (s : State) (e : WireEvent) : (s.emit e).btn = s.btn := rfl
@[simp] theorem State.emit_seg (s : State) (e : WireEvent) : (s.emit e).seg = s.seg := rfl
@[simp] theorem State.emit_phase (s : State) (e : WireEvent) : (s.emit e).phase = s.phase := rfl
@[simp] theorem State.emit_cs (s : State) (e : WireEvent) : (s.emit e).cs = s.cs := rfl
@[simp] theorem State.emit_run (s : State) (e : WireEvent) : (s.emit e).run = s.run := rfl
@[simp] theorem State.emit_txd (s : State) (e : WireEvent) : (s.emit e).txd = s.txd := rfl
@[simp] theorem State.emit_cmd (s : State) (e : WireEvent) : (s.emit e).cmd = s.cmd := rfl
@[simp] theorem State.emit_rsps (s : State) (e : WireEvent) : (s.emit e).rsps = s.rsps := rfl
@[simp] theorem State.emit_wire (s : State) (e : WireEvent) : (s.emit e).wire = s.wire ++ [e] := rfl
@[simp] theorem State.emit_inputs (s : State) (e : WireEvent) : (s.emit e).inputs = s.inputs := rfl
@[simp] theorem State.emit_drawn (s : State) (e : WireEvent) : (s.emit e).drawn = s.drawn := rfl

/-! Fields after a response. -/

@[simp] theorem State.respond_led (s : State) (st : Status) (rd : Byte) : (s.respond st rd).led = s.led :=
  rfl
@[simp] theorem State.respond_btn (s : State) (st : Status) (rd : Byte) : (s.respond st rd).btn = s.btn :=
  rfl
@[simp] theorem State.respond_seg (s : State) (st : Status) (rd : Byte) : (s.respond st rd).seg = s.seg :=
  rfl
@[simp] theorem State.respond_phase (s : State) (st : Status) (rd : Byte) : (s.respond st rd).phase = s.phase :=
  rfl
@[simp] theorem State.respond_cs (s : State) (st : Status) (rd : Byte) : (s.respond st rd).cs = s.cs :=
  rfl
@[simp] theorem State.respond_run (s : State) (st : Status) (rd : Byte) : (s.respond st rd).run = s.run :=
  rfl
@[simp] theorem State.respond_txd (s : State) (st : Status) (rd : Byte) : (s.respond st rd).txd = s.txd :=
  rfl
@[simp] theorem State.respond_cmd (s : State) (st : Status) (rd : Byte) : (s.respond st rd).cmd = none :=
  rfl
@[simp] theorem State.respond_rsps (s : State) (st : Status) (rd : Byte) : (s.respond st rd).rsps = s.rsps ++ [rspWord st rd] :=
  rfl
@[simp] theorem State.respond_wire (s : State) (st : Status) (rd : Byte) : (s.respond st rd).wire = s.wire :=
  rfl
@[simp] theorem State.respond_inputs (s : State) (st : Status) (rd : Byte) : (s.respond st rd).inputs = s.inputs :=
  rfl
@[simp] theorem State.respond_drawn (s : State) (st : Status) (rd : Byte) : (s.respond st rd).drawn = s.drawn :=
  rfl

/-! Fields after `rst`. -/

@[simp] theorem State.assertReset_led (s : State) : (s.assertReset).led = 0 := rfl
@[simp] theorem State.assertReset_btn (s : State) : (s.assertReset).btn = 0 := rfl
@[simp] theorem State.assertReset_seg (s : State) : (s.assertReset).seg = SegFile.blank := rfl
@[simp] theorem State.assertReset_phase (s : State) : (s.assertReset).phase = 0 := rfl
@[simp] theorem State.assertReset_cs (s : State) : (s.assertReset).cs = true := rfl
@[simp] theorem State.assertReset_run (s : State) : (s.assertReset).run = false := rfl
@[simp] theorem State.assertReset_txd (s : State) : (s.assertReset).txd = 0 := rfl
@[simp] theorem State.assertReset_cmd (s : State) : (s.assertReset).cmd = none := rfl
@[simp] theorem State.assertReset_rsps (s : State) : (s.assertReset).rsps = s.rsps := rfl
@[simp] theorem State.assertReset_wire (s : State) : (s.assertReset).wire = s.wire := rfl
@[simp] theorem State.assertReset_inputs (s : State) : (s.assertReset).inputs = s.inputs := rfl
@[simp] theorem State.assertReset_drawn (s : State) : (s.assertReset).drawn = s.drawn := rfl

/-! Fields after loading a program. -/

@[simp] theorem State.loadMoves_led (s : State) (ms : List Move) : (s.loadMoves ms).led = s.led :=
  rfl
@[simp] theorem State.loadMoves_btn (s : State) (ms : List Move) : (s.loadMoves ms).btn = s.btn :=
  rfl
@[simp] theorem State.loadMoves_seg (s : State) (ms : List Move) : (s.loadMoves ms).seg = s.seg :=
  rfl
@[simp] theorem State.loadMoves_phase (s : State) (ms : List Move) : (s.loadMoves ms).phase = s.phase :=
  rfl
@[simp] theorem State.loadMoves_cs (s : State) (ms : List Move) : (s.loadMoves ms).cs = s.cs := rfl
@[simp] theorem State.loadMoves_run (s : State) (ms : List Move) : (s.loadMoves ms).run = s.run :=
  rfl
@[simp] theorem State.loadMoves_txd (s : State) (ms : List Move) : (s.loadMoves ms).txd = s.txd :=
  rfl
@[simp] theorem State.loadMoves_cmd (s : State) (ms : List Move) : (s.loadMoves ms).cmd = s.cmd :=
  rfl
@[simp] theorem State.loadMoves_rsps (s : State) (ms : List Move) : (s.loadMoves ms).rsps = s.rsps :=
  rfl
@[simp] theorem State.loadMoves_wire (s : State) (ms : List Move) : (s.loadMoves ms).wire = s.wire :=
  rfl
@[simp] theorem State.loadMoves_inputs (s : State) (ms : List Move) : (s.loadMoves ms).inputs = ms :=
  rfl
@[simp] theorem State.loadMoves_drawn (s : State) (ms : List Move) : (s.loadMoves ms).drawn = s.drawn :=
  rfl

/-! Fields after a command is accepted: only the outstanding command can change. -/

@[simp] theorem State.acceptCmd_led (s : State) (w : CmdWord) : (s.acceptCmd w).led = s.led := by
  unfold State.acceptCmd; split <;> rfl
@[simp] theorem State.acceptCmd_btn (s : State) (w : CmdWord) : (s.acceptCmd w).btn = s.btn := by
  unfold State.acceptCmd; split <;> rfl
@[simp] theorem State.acceptCmd_seg (s : State) (w : CmdWord) : (s.acceptCmd w).seg = s.seg := by
  unfold State.acceptCmd; split <;> rfl
@[simp] theorem State.acceptCmd_phase (s : State) (w : CmdWord) : (s.acceptCmd w).phase = s.phase := by
  unfold State.acceptCmd; split <;> rfl
@[simp] theorem State.acceptCmd_cs (s : State) (w : CmdWord) : (s.acceptCmd w).cs = s.cs := by
  unfold State.acceptCmd; split <;> rfl
@[simp] theorem State.acceptCmd_run (s : State) (w : CmdWord) : (s.acceptCmd w).run = s.run := by
  unfold State.acceptCmd; split <;> rfl
@[simp] theorem State.acceptCmd_txd (s : State) (w : CmdWord) : (s.acceptCmd w).txd = s.txd := by
  unfold State.acceptCmd; split <;> rfl
@[simp] theorem State.acceptCmd_rsps (s : State) (w : CmdWord) : (s.acceptCmd w).rsps = s.rsps := by
  unfold State.acceptCmd; split <;> rfl
@[simp] theorem State.acceptCmd_wire (s : State) (w : CmdWord) : (s.acceptCmd w).wire = s.wire := by
  unfold State.acceptCmd; split <;> rfl
@[simp] theorem State.acceptCmd_inputs (s : State) (w : CmdWord) : (s.acceptCmd w).inputs = s.inputs := by
  unfold State.acceptCmd; split <;> rfl
@[simp] theorem State.acceptCmd_drawn (s : State) (w : CmdWord) : (s.acceptCmd w).drawn = s.drawn := by
  unfold State.acceptCmd; split <;> rfl

/-! Fields after the free stretch is drawn and after a move is taken: only the inputs and the count of
stretches can change. -/

@[simp] theorem State.draw_led (s : State) : s.draw.led = s.led := by
  unfold State.draw; split <;> rfl
@[simp] theorem State.draw_btn (s : State) : s.draw.btn = s.btn := by
  unfold State.draw; split <;> rfl
@[simp] theorem State.draw_seg (s : State) : s.draw.seg = s.seg := by
  unfold State.draw; split <;> rfl
@[simp] theorem State.draw_phase (s : State) : s.draw.phase = s.phase := by
  unfold State.draw; split <;> rfl
@[simp] theorem State.draw_cs (s : State) : s.draw.cs = s.cs := by
  unfold State.draw; split <;> rfl
@[simp] theorem State.draw_run (s : State) : s.draw.run = s.run := by
  unfold State.draw; split <;> rfl
@[simp] theorem State.draw_txd (s : State) : s.draw.txd = s.txd := by
  unfold State.draw; split <;> rfl
@[simp] theorem State.draw_cmd (s : State) : s.draw.cmd = s.cmd := by
  unfold State.draw; split <;> rfl
@[simp] theorem State.draw_rsps (s : State) : s.draw.rsps = s.rsps := by
  unfold State.draw; split <;> rfl
@[simp] theorem State.draw_wire (s : State) : s.draw.wire = s.wire := by
  unfold State.draw; split <;> rfl
/-- With an input decided nothing is drawn. -/
theorem State.draw_of_decided {s : State} {m : Move} {rest : List Move} (h : s.inputs = m :: rest) :
    s.draw = s := by
  simp only [State.draw, h]
/-- With no input decided the stretch of this draw is. -/
theorem State.draw_of_undecided {s : State} (h : s.inputs = []) :
    s.draw = { s with inputs := (Config.schedule s.drawn).moves, drawn := s.drawn + 1 } := by
  simp only [State.draw, h]
/-- Once the stretch is drawn a move is decided. -/
theorem State.draw_inputs_ne_nil (s : State) : s.draw.inputs ≠ [] := by
  unfold State.draw
  split
  · simp_all
  · simp [Stretch.moves]
/-- Drawing again draws nothing. -/
@[simp] theorem State.draw_draw (s : State) : s.draw.draw = s.draw := by
  obtain ⟨m, rest, h⟩ := List.exists_cons_of_ne_nil s.draw_inputs_ne_nil
  exact State.draw_of_decided h

@[simp] theorem State.takeMove_led (s : State) : s.takeMove.led = s.led := by
  unfold State.takeMove; split <;> simp
@[simp] theorem State.takeMove_btn (s : State) : s.takeMove.btn = s.btn := by
  unfold State.takeMove; split <;> simp
@[simp] theorem State.takeMove_seg (s : State) : s.takeMove.seg = s.seg := by
  unfold State.takeMove; split <;> simp
@[simp] theorem State.takeMove_phase (s : State) : s.takeMove.phase = s.phase := by
  unfold State.takeMove; split <;> simp
@[simp] theorem State.takeMove_cs (s : State) : s.takeMove.cs = s.cs := by
  unfold State.takeMove; split <;> simp
@[simp] theorem State.takeMove_run (s : State) : s.takeMove.run = s.run := by
  unfold State.takeMove; split <;> simp
@[simp] theorem State.takeMove_txd (s : State) : s.takeMove.txd = s.txd := by
  unfold State.takeMove; split <;> simp
@[simp] theorem State.takeMove_cmd (s : State) : s.takeMove.cmd = s.cmd := by
  unfold State.takeMove; split <;> simp
@[simp] theorem State.takeMove_rsps (s : State) : s.takeMove.rsps = s.rsps := by
  unfold State.takeMove; split <;> simp
@[simp] theorem State.takeMove_wire (s : State) : s.takeMove.wire = s.wire := by
  unfold State.takeMove; split <;> simp

end Sys2Proof.Machine
end

