-- ==== Sys2Proof/Laws/Ops.lean ====
section
/-! SUPPORT. Once per shared operation, everything it can do; the inversion lemmas of exec and of a move. -/

namespace Sys2Proof.Machine

/-- SEG[k] reads as it was written. -/
@[simp] theorem SegFile.read_write_same (f : SegFile) (k : Digit) (d : Byte) :
    (f.write k d).read k = d := by
  fin_cases k <;> rfl

/-- Writing one segment register leaves the other four. -/
theorem SegFile.read_write_other (f : SegFile) (k j : Digit) (d : Byte) (h : j ≠ k) :
    (f.write k d).read j = f.read j := by
  fin_cases k <;> fin_cases j <;> first | rfl | exact absurd rfl h

/-- The status of a response word (R71). -/
@[simp] theorem rspStatus_rspWord (st : Status) (rd : Byte) :
    rspStatus (rspWord st rd) = statusCode st := by
  apply BitVec.eq_of_getLsbD_eq
  intro i hi
  simp only [rspStatus, rspWord, BitVec.getLsbD_extractLsb', BitVec.getLsbD_append]
  simp [hi]

/-- The data of a response word (R71). -/
@[simp] theorem rspData_rspWord (st : Status) (rd : Byte) : rspData (rspWord st rd) = rd := by
  apply BitVec.eq_of_getLsbD_eq
  intro i hi
  simp only [rspData, rspWord, BitVec.getLsbD_extractLsb', BitVec.getLsbD_append]
  simp [hi]

/-- A response word as a number: `STATUS * 256 + RDATA` (R71). -/
theorem rspWord_toNat (st : Status) (rd : Byte) :
    (rspWord st rd).toNat = (statusCode st).toNat * 256 + rd.toNat := by
  have h : (rspWord st rd).toNat = (statusCode st).toNat <<< 8 ||| rd.toNat :=
    BitVec.toNat_append (statusCode st) rd
  rw [h, ← Nat.shiftLeft_add_eq_or_of_lt rd.isLt, Nat.shiftLeft_eq]

/-- PHASE after a step, as a number (R122). -/
theorem nextPhase_toNat (p : PhaseVal) : (nextPhase p).toNat = (p.toNat + 1) % 7 := by
  revert p
  decide

/-- No step writes the value 7 (R28). -/
theorem nextPhase_ne_seven (p : PhaseVal) : nextPhase p ≠ 7 := by
  revert p
  decide

/-- Everything a rejection does: it answers, with the response and no register changed (R204). -/
theorem raiseHostError_spec {code : Status} {s t : State} (h : raiseHostError code s = .next t) :
    t = s.respond code 0 := by
  cases h
  rfl

/-- Everything a sequencer step does when it answers (R122). -/
theorem seqStep_spec {action : State → State} {s t : State} (h : seqStep action s = .next t) :
    s.phase ≠ 7 ∧ t = (action s).setPhase (nextPhase s.phase) := by
  unfold seqStep at h
  split at h
  · cases h
  · cases h
    exact ⟨‹_›, rfl⟩

/-- A sequencer step answers where PHASE is legal. -/
theorem seqStep_of_legal {action : State → State} {s : State} (h : s.phase ≠ 7) :
    seqStep action s = .next ((action s).setPhase (nextPhase s.phase)) :=
  if_neg h

/-- START with RUN = 1 is the rejection (R153). -/
theorem execStart_running (x : Byte) {s : State} (h : s.run = true) :
    execStart x s = raiseHostError .errAlreadyRunning s :=
  if_pos h

/-- START with RUN = 0 is the bring-up (R152). -/
theorem execStart_stopped (x : Byte) {s : State} (h : s.run = false) :
    execStart x s = .next ((((s.setCs true).queue s.led).setRun).respond .ok 0) :=
  if_neg (by rw [h]; exact Bool.false_ne_true)

/-- Everything a host command can do: it always answers, with one response, after one of four effects
on the registers (R152, R181, R182, and none for the others). -/
theorem exec_hostCommand (i : Instr) (s : State) (h : i.isHostCommand = true) :
    ∃ u st rd, exec i s = .next (u.respond st rd) ∧
      (u = s ∨ (st = .ok ∧ ∃ d, u = s.setLed d) ∨ (st = .ok ∧ ∃ k d, u = s.setSeg k d) ∨
        (st = .ok ∧ s.run = false ∧ u = ((s.setCs true).queue s.led).setRun)) := by
  cases i <;> try cases h
  case start x =>
    cases hr : s.run
    · exact ⟨_, .ok, 0, execStart_stopped x hr, .inr (.inr (.inr ⟨rfl, rfl, rfl⟩))⟩
    · exact ⟨s, .errAlreadyRunning, 0, execStart_running x hr, .inl rfl⟩
  case wrLed d => exact ⟨_, .ok, 0, rfl, .inr (.inl ⟨rfl, d, rfl⟩)⟩
  case rdBtn x => exact ⟨s, _, _, rfl, .inl rfl⟩
  case wrSeg0 d => exact ⟨_, .ok, 0, rfl, .inr (.inr (.inl ⟨rfl, 0, d, rfl⟩))⟩
  case wrSeg1 d => exact ⟨_, .ok, 0, rfl, .inr (.inr (.inl ⟨rfl, 1, d, rfl⟩))⟩
  case wrSeg2 d => exact ⟨_, .ok, 0, rfl, .inr (.inr (.inl ⟨rfl, 2, d, rfl⟩))⟩
  case wrSeg3 d => exact ⟨_, .ok, 0, rfl, .inr (.inr (.inl ⟨rfl, 3, d, rfl⟩))⟩
  case wrSeg4 d => exact ⟨_, .ok, 0, rfl, .inr (.inr (.inl ⟨rfl, 4, d, rfl⟩))⟩
  all_goals exact ⟨s, _, _, rfl, .inl rfl⟩

/-- Everything a sequencer action can do when it answers: PHASE was legal and advances, one byte is
queued, and at most BTN or CS is written besides (R123 to R129). -/
theorem exec_sequencer {i : Instr} {s t : State} (h : i.isHostCommand = false)
    (ht : exec i s = .next t) :
    s.phase ≠ 7 ∧ ∃ u b, t = (u.queue b).setPhase (nextPhase s.phase) ∧
      (u = s ∨ (∃ rx, i = .ph0 rx ∧ u = s.setBtn rx) ∨ (∃ rx, i = .ph5 rx ∧ u = s.setCs false) ∨
        (∃ rx, i = .ph6 rx ∧ u = s.setCs true)) := by
  cases i <;> try cases h
  case ph7 rx => cases ht
  case ph0 rx =>
    simp only [exec, execPh0] at ht
    obtain ⟨h7, rfl⟩ := seqStep_spec ht
    exact ⟨h7, _, _, rfl, .inr (.inl ⟨rx, rfl, rfl⟩)⟩
  case ph5 rx =>
    simp only [exec, execPh5] at ht
    obtain ⟨h7, rfl⟩ := seqStep_spec ht
    exact ⟨h7, _, _, rfl, .inr (.inr (.inl ⟨rx, rfl, rfl⟩))⟩
  case ph6 rx =>
    simp only [exec, execPh6] at ht
    obtain ⟨h7, rfl⟩ := seqStep_spec ht
    exact ⟨h7, _, _, rfl, .inr (.inr (.inr ⟨rx, rfl, rfl⟩))⟩
  all_goals
    simp only [exec, execPh1, execPh2, execPh3, execPh4] at ht
    obtain ⟨h7, rfl⟩ := seqStep_spec ht
    exact ⟨h7, s, _, rfl, .inl rfl⟩

/-- Everything one step can do: the next move happens to the state from which it was taken. -/
theorem step_eq (s : State) : step s = applyMove s.nextMove s.takeMove := rfl

/-- A decided move that does not have to wait is the one that happens. -/
theorem nextMove_of_decided {s : State} {m : Move} {rest : List Move} (h : s.inputs = m :: rest)
    (hm : s.cmd = none ∨ ∀ w, m ≠ .host w) :
    s.nextMove = m ∧ s.takeMove = { s with inputs := rest } := by
  have ho : s.offered = m := by simp [State.offered, State.draw_of_decided h, h]
  have hw : s.hostWaits = false := by
    cases m <;> simp [State.hostWaits, ho, State.cmdReady]
    rcases hm with hm | hm
    · exact hm
    · exact absurd rfl (hm _)
  simp [State.nextMove, State.takeMove, hw, ho, State.draw_of_decided h, h]

/-- While the host waits, the outstanding command is executed and the offered one stays offered. -/
theorem nextMove_of_waiting {s : State} (h : s.hostWaits = true) :
    s.nextMove = .execute ∧ s.takeMove = s.draw := by
  simp [State.nextMove, State.takeMove, h]

/-- Everything a move can do when it answers: nothing, a reset, the acceptance of a command, one host
command, or one completion with the step PHASE selects. -/
theorem applyMove_cases {m : Move} {s t : State} (h : applyMove m s = .next t) :
    t = s ∨ (m = .rst ∧ t = s.assertReset) ∨ (∃ w, m = .host w ∧ t = s.acceptCmd w) ∨
      (∃ w, m = .execute ∧ s.cmd = some w ∧ exec (decodeCmd w) s = .next t) ∨
      (∃ rx, m = .complete rx ∧ s.run = true ∧
        exec (decodePhase s.phase rx) (s.emit ⟨s.cs, s.txd, rx⟩) = .next t) := by
  cases m with
  | idle => cases h; exact .inl rfl
  | rst => cases h; exact .inr (.inl ⟨rfl, rfl⟩)
  | host w => cases h; exact .inr (.inr (.inl ⟨w, rfl, rfl⟩))
  | execute =>
    simp only [applyMove, executeCmd] at h
    split at h
    · exact .inr (.inr (.inr (.inl ⟨_, rfl, ‹_›, h⟩)))
    · cases h; exact .inl rfl
  | complete rx =>
    simp only [applyMove, completeTransfer] at h
    split at h
    · exact .inr (.inr (.inr (.inr ⟨rx, rfl, ‹_›, h⟩)))
    · cases h; exact .inl rfl

end Sys2Proof.Machine
end

