-- ==== Sys2Proof/Laws/PerInstr.lean ====
section
/-! SUPPORT. One statement per instruction: the bits an instruction encodes to match the row of
spec/opcode_table.json it stands for, and so no other row of its format. -/

namespace Sys2Proof.Laws.TableRow

/-- The encoding of `i` matches its row: the bits under the row's mask are the row's match. -/
def Statement (i : Instr) : Prop :=
  i.wellFormed = true → (encode i).tableBits &&& (tableRow i).2 = (tableRow i).1

/-- A command word with DATA 0 is its OPC times 256. -/
theorem cmdWord_zero (opc : Opc) : (cmdWord opc 0).toNat = opc.toNat * 256 := by
  revert opc
  decide

/-- Of the reserved opcodes of one row the mask keeps `CMD[11:10]`. -/
theorem reserved_mask (opc : Opc) :
    isReserved4to7 opc = true → opc.toNat * 256 &&& 0xC00 = 0x400 := by
  revert opc
  decide

/-- PHASE under its own mask is itself. -/
theorem phase_mask (p : PhaseVal) : p.toNat &&& 7 = p.toNat := by
  revert p
  decide

/-- A command word under the mask of OPC is its OPC. -/
theorem cmdWord_mask (opc : Opc) (d : Byte) :
    (cmdWord opc d).toNat &&& 0xF00 = opc.toNat * 256 := by
  have h : cmdWord opc d &&& 0xF00 = cmdWord opc 0 := by
    apply BitVec.eq_of_getLsbD_eq
    intro i hi
    simp only [cmdWord, BitVec.getLsbD_and, BitVec.getLsbD_append]
    interval_cases i <;> simp
  rw [← cmdWord_zero, ← h, BitVec.toNat_and]
  rfl

theorem start (x : Byte) : Statement (.start x) := fun _ => cmdWord_mask 0x1 x
theorem wrLed (d : Byte) : Statement (.wrLed d) := fun _ => cmdWord_mask 0x2 d
theorem rdBtn (x : Byte) : Statement (.rdBtn x) := fun _ => cmdWord_mask 0x3 x
theorem wrSeg0 (d : Byte) : Statement (.wrSeg0 d) := fun _ => cmdWord_mask 0x8 d
theorem wrSeg1 (d : Byte) : Statement (.wrSeg1 d) := fun _ => cmdWord_mask 0x9 d
theorem wrSeg2 (d : Byte) : Statement (.wrSeg2 d) := fun _ => cmdWord_mask 0xA d
theorem wrSeg3 (d : Byte) : Statement (.wrSeg3 d) := fun _ => cmdWord_mask 0xB d
theorem wrSeg4 (d : Byte) : Statement (.wrSeg4 d) := fun _ => cmdWord_mask 0xC d
theorem wrSegBad5 (d : Byte) : Statement (.wrSegBad5 d) := fun _ => cmdWord_mask 0xD d
theorem wrSegBad6 (d : Byte) : Statement (.wrSegBad6 d) := fun _ => cmdWord_mask 0xE d
theorem wrSegBad7 (d : Byte) : Statement (.wrSegBad7 d) := fun _ => cmdWord_mask 0xF d
theorem reserved0 (d : Byte) : Statement (.reserved0 d) := fun _ => cmdWord_mask 0x0 d

theorem reserved4to7 (opc : Opc) (d : Byte) : Statement (.reserved4to7 opc d) := by
  intro h
  have hm : (cmdWord opc d).toNat &&& 0xC00 = ((cmdWord opc d).toNat &&& 0xF00) &&& 0xC00 := by
    rw [Nat.and_assoc]
    rfl
  simp only [encode, Selector.tableBits, tableRow]
  rw [hm, cmdWord_mask]
  exact reserved_mask opc h

theorem ph0 (rx : Byte) : Statement (.ph0 rx) := fun _ => phase_mask 0
theorem ph1 (rx : Byte) : Statement (.ph1 rx) := fun _ => phase_mask 1
theorem ph2 (rx : Byte) : Statement (.ph2 rx) := fun _ => phase_mask 2
theorem ph3 (rx : Byte) : Statement (.ph3 rx) := fun _ => phase_mask 3
theorem ph4 (rx : Byte) : Statement (.ph4 rx) := fun _ => phase_mask 4
theorem ph5 (rx : Byte) : Statement (.ph5 rx) := fun _ => phase_mask 5
theorem ph6 (rx : Byte) : Statement (.ph6 rx) := fun _ => phase_mask 6
theorem ph7 (rx : Byte) : Statement (.ph7 rx) := fun _ => phase_mask 7

end Sys2Proof.Laws.TableRow
end

