-- ==== Sys2Proof/Tests/Slice0.lean ====
section
/-! SUPPORT. Tests: the well-formedness check, a word of every row written out from the spec's encodings, the
spec's vectors one step each, and a witness for every statement that has hypotheses. Expected results
are those of spec/95_test_vectors.md or read off the rule named. -/

namespace Sys2Proof.Tests

open Sys2Proof Sys2Proof.Machine

/-! ## Helpers -/

/-- The next state of an outcome, where there is one. -/
def nextOf : Host.Outcome State Fault Refusal → Option State
  | .next t => some t
  | .fault _ => none
  | .refused _ => none

/-- The end state of program P1 (95_test_vectors 3), with an empty record. -/
def running : State :=
  { State.reset with led := 0xA5, btn := 0x5A, seg := ⟨0x66, 0x4F, 0x5B, 0x06, 0x3F⟩, run := true,
                     txd := 0xA5 }

/-- `running` in phase `p`, with CS as R37 has it. -/
def runningAt (p : PhaseVal) : State := { running with phase := p, cs := p != 6 }

/-! ## Well-formedness: the one check, and a term it refuses -/

theorem test_wellFormed_refuses_opcode_2 : (Instr.reserved4to7 0x2 0x00).wellFormed = false := by
  decide
theorem test_wellFormed_refuses_opcode_8 : (Instr.reserved4to7 0x8 0x00).wellFormed = false := by
  decide
theorem test_wellFormed_accepts_opcode_4 : (Instr.reserved4to7 0x4 0xFF).wellFormed = true := by
  decide
theorem test_wellFormed_accepts_opcode_7 : (Instr.reserved4to7 0x7 0xFF).wellFormed = true := by
  decide

/-! ## Decoding: a word of every row, written out bit by bit from R73 and R81 -/

theorem test_decode_start : decodeTableWord 16 0b000111111111 = some (.start 0xFF) := by decide
theorem test_decode_wrLed : decodeTableWord 16 0b001010100101 = some (.wrLed 0xA5) := by decide
theorem test_decode_rdBtn : decodeTableWord 16 0b001110101011 = some (.rdBtn 0xAB) := by decide
theorem test_decode_wrSeg0 : decodeTableWord 16 0b100001100110 = some (.wrSeg0 0x66) := by decide
theorem test_decode_wrSeg1 : decodeTableWord 16 0b100101001111 = some (.wrSeg1 0x4F) := by decide
theorem test_decode_wrSeg2 : decodeTableWord 16 0b101001011011 = some (.wrSeg2 0x5B) := by decide
theorem test_decode_wrSeg3 : decodeTableWord 16 0b101100000110 = some (.wrSeg3 0x06) := by decide
theorem test_decode_wrSeg4 : decodeTableWord 16 0b110000111111 = some (.wrSeg4 0x3F) := by decide
theorem test_decode_wrSegBad5 : decodeTableWord 16 0b110100010010 = some (.wrSegBad5 0x12) := by decide
theorem test_decode_wrSegBad6 : decodeTableWord 16 0b111010101010 = some (.wrSegBad6 0xAA) := by decide
theorem test_decode_wrSegBad7 : decodeTableWord 16 0b111111111111 = some (.wrSegBad7 0xFF) := by decide
theorem test_decode_reserved0 : decodeTableWord 16 0b000000010010 = some (.reserved0 0x12) := by decide
theorem test_decode_reserved4 : decodeTableWord 16 0b010011111111 = some (.reserved4to7 0x4 0xFF) := by
  decide
theorem test_decode_reserved7 : decodeTableWord 16 0b011111111111 = some (.reserved4to7 0x7 0xFF) := by
  decide
theorem test_decode_ph0 : decodeTableWord 8 0b000 = some (.ph0 0) := by decide
theorem test_decode_ph1 : decodeTableWord 8 0b001 = some (.ph1 0) := by decide
theorem test_decode_ph2 : decodeTableWord 8 0b010 = some (.ph2 0) := by decide
theorem test_decode_ph3 : decodeTableWord 8 0b011 = some (.ph3 0) := by decide
theorem test_decode_ph4 : decodeTableWord 8 0b100 = some (.ph4 0) := by decide
theorem test_decode_ph5 : decodeTableWord 8 0b101 = some (.ph5 0) := by decide
theorem test_decode_ph6 : decodeTableWord 8 0b110 = some (.ph6 0) := by decide
theorem test_decode_ph7 : decodeTableWord 8 0b111 = some (.ph7 0) := by decide
theorem test_decode_refuses_13_bits : decodeTableWord 16 0b1000000000000 = none := by decide
theorem test_decode_refuses_phase_8 : decodeTableWord 8 0b1000 = none := by decide

/-! ## One step or one instruction each, from the spec's vectors -/

/-- B2: START from RUN = 0 and LED = A5. -/
theorem test_start_kicks_off :
    (nextOf (exec (.start 0) { State.reset with led := 0xA5 })).map
      (fun t => (t.run, t.txd, t.cs, t.phase, t.rsps)) = some (true, 0xA5, true, 0, [0x000]) := by
  decide
/-- B3: START while running. -/
theorem test_start_rejected_while_running :
    nextOf (exec (.start 0xFF) running) = some { running with rsps := [0x300] } := by decide
/-- H1. -/
theorem test_wrLed : nextOf (exec (.wrLed 0xA5) State.reset) =
    some { State.reset with led := 0xA5, rsps := [0x000] } := by decide
/-- H8. -/
theorem test_rdBtn : nextOf (exec (.rdBtn 0xAB) running) =
    some { running with rsps := [0x05A] } := by decide
/-- H4: bit 7 set, not from the encoder. -/
theorem test_wrSeg0 : (nextOf (exec (.wrSeg0 0xFF) running)).map (·.seg) =
    some ⟨0xFF, 0x4F, 0x5B, 0x06, 0x3F⟩ := by decide
theorem test_wrSeg1 : (nextOf (exec (.wrSeg1 0x50) running)).map (·.seg) =
    some ⟨0x66, 0x50, 0x5B, 0x06, 0x3F⟩ := by decide
/-- H3. -/
theorem test_wrSeg2 : (nextOf (exec (.wrSeg2 0x5B) State.reset)).map (·.seg) =
    some ⟨0, 0, 0x5B, 0, 0⟩ := by decide
theorem test_wrSeg3 : (nextOf (exec (.wrSeg3 0x5C) running)).map (·.seg) =
    some ⟨0x66, 0x4F, 0x5B, 0x5C, 0x3F⟩ := by decide
/-- H12: no transfer starts. -/
theorem test_wrSeg4 : (nextOf (exec (.wrSeg4 0x3F) State.reset)).map (fun t => (t.seg, t.inFlight)) =
    some (⟨0, 0, 0, 0, 0x3F⟩, none) := by decide
/-- H5. -/
theorem test_wrSegBad5 : nextOf (exec (.wrSegBad5 0x12) running) =
    some { running with rsps := [0x200] } := by decide
/-- X2. -/
theorem test_wrSegBad6 : nextOf (exec (.wrSegBad6 0x00) State.reset) =
    some { State.reset with rsps := [0x200] } := by decide
/-- H6. -/
theorem test_wrSegBad7 : nextOf (exec (.wrSegBad7 0x80) running) =
    some { running with rsps := [0x200] } := by decide
/-- H10. -/
theorem test_reserved0 : nextOf (exec (.reserved0 0x12) running) =
    some { running with rsps := [0x100] } := by decide
/-- H11. -/
theorem test_reserved4to7 : nextOf (exec (.reserved4to7 0x6 0xC3) running) =
    some { running with rsps := [0x100] } := by decide
/-- S0a: 0x00 is stored. -/
theorem test_ph0_stores_zero :
    (nextOf (exec (.ph0 0x00) (runningAt 0))).map (fun t => (t.btn, t.txd, t.phase)) =
      some (0x00, 0x66, 1) := by decide
/-- S0b. -/
theorem test_ph0_stores_ff :
    (nextOf (exec (.ph0 0xFF) (runningAt 0))).map (fun t => (t.btn, t.txd, t.phase)) =
      some (0xFF, 0x66, 1) := by decide
/-- S1: BTN stays. -/
theorem test_ph1 : (nextOf (exec (.ph1 0xFF) (runningAt 1))).map (fun t => (t.btn, t.txd, t.phase)) =
    some (0x5A, 0x4F, 2) := by decide
/-- S2. -/
theorem test_ph2 : (nextOf (exec (.ph2 0x01) (runningAt 2))).map (fun t => (t.btn, t.txd, t.phase)) =
    some (0x5A, 0x5B, 3) := by decide
/-- S3. -/
theorem test_ph3 : (nextOf (exec (.ph3 0x01) (runningAt 3))).map (fun t => (t.btn, t.txd, t.phase)) =
    some (0x5A, 0x06, 4) := by decide
/-- S4. -/
theorem test_ph4 : (nextOf (exec (.ph4 0x01) (runningAt 4))).map (fun t => (t.cs, t.txd, t.phase)) =
    some (true, 0x3F, 5) := by decide
/-- S5. -/
theorem test_ph5 : (nextOf (exec (.ph5 0x01) (runningAt 5))).map (fun t => (t.cs, t.txd, t.phase)) =
    some (false, 0xA5, 6) := by decide
/-- S6. -/
theorem test_ph6 : (nextOf (exec (.ph6 0x01) (runningAt 6))).map (fun t => (t.cs, t.txd, t.phase)) =
    some (true, 0xA5, 0) := by decide
/-- S7. -/
theorem test_ph7_faults : exec (.ph7 0x01) (runningAt 7) = .fault .phaseOutOfRange := rfl
/-- A completion that finds PHASE = 7 faults in the step (S7). -/
theorem test_step_phase_7_faults :
    step (State.reset.withFetchWord 8 0b111) = .fault .phaseOutOfRange := rfl
/-- B5, the last row of P1's trace: the wire event T(0, A5, 66). -/
theorem test_step_emits_wire_event :
    (nextOf (step { runningAt 6 with inputs := [.complete 0x66] })).map (·.wire) =
      some [⟨false, 0xA5, 0x66⟩] := by decide
/-- B4: RUN = 0, no completion is enabled. -/
theorem test_step_no_completion_before_start :
    nextOf (step { State.reset with inputs := [.complete 0x66] }) = some State.reset := by decide
/-- RS2: CS rises at once. -/
theorem test_step_reset_raises_cs :
    (nextOf (step { runningAt 6 with inputs := [.rst] })).map (fun t => (t.cs, t.run, t.phase)) =
      some (true, false, 0) := by decide
/-- R180: the host's second command waits for the first one's response. -/
theorem test_step_host_waits :
    (nextOf (step { State.reset with cmd := some 0x2A5, inputs := [.host 0x300] })).map
      (fun t => (t.led, t.cmd, t.rsps, t.inputs)) = some (0xA5, none, [0x000], [.host 0x300]) := by
  decide
/-- A placed command is what the next step runs. -/
theorem test_step_placed_command :
    (nextOf (step (State.reset.withFetchWord 16 0x23C))).map (fun t => (t.led, t.rsps)) =
      some (0x3C, [0x000]) := by decide

/-! ## The companions -/

/-- E1 to E8, E15, E16: the conventional table. -/
theorem test_encoder_conventional_table :
    [encodeGlyphWith conventionalTable 0x30 false, encodeGlyphWith conventionalTable 0x30 true,
      encodeGlyphWith conventionalTable 0x38 true, encodeGlyphWith conventionalTable 0x34 false,
      encodeGlyphWith conventionalTable 0x48 false, encodeGlyphWith conventionalTable 0x45 true,
      encodeGlyphWith conventionalTable 0x6F true, encodeGlyphWith conventionalTable 0x4C false,
      encodeGlyphWith conventionalTable 0x39 false, encodeGlyphWith conventionalTable 0x72 false] =
    [0x3F, 0xBF, 0xFF, 0x66, 0x76, 0xF9, 0xDC, 0x38, 0x6F, 0x50] := by decide
/-- E9 to E14, whatever the table. -/
theorem test_encoder_blank :
    [encodeGlyph 0x20 false, encodeGlyph 0x20 true, encodeGlyph 0x68 true, encodeGlyph 0x52 false,
      encodeGlyph 0x00 true, encodeGlyph 0xFF true] = [0, 0, 0, 0, 0, 0] := rfl
/-- R156: MSB_FIRST sends bit 7 first. -/
theorem test_bits_msb_first :
    bitsOut .msbFirst 0xA1 = [true, false, true, false, false, false, false, true] := by decide
/-- R156: the first bit in becomes rx[0] with LSB_FIRST. -/
theorem test_bits_lsb_first_in :
    byteIn .lsbFirst [true, false, false, false, false, false, false, false] = 0x01 := by decide
/-- P4: `WR_DIGIT 2, '8', 1` is 0xAFF and `BLANK 2` is 0xA00. -/
theorem test_assemble_pseudo :
    (assemble conventionalTable (.wrDigit 2 0x38 1), assemble conventionalTable (.blank 2)) =
      (some [0xAFF], some [0xA00]) := by decide
/-- R83: WR_FRAME is five commands in order; R82: digit 5 is refused. -/
theorem test_assemble_frame :
    (assemble conventionalTable (.wrFrame 0x66 0x4F 0x5B 0x06 0x3F),
      assemble conventionalTable (.wrSeg 5 0)) =
      (some [0x866, 0x94F, 0xA5B, 0xB06, 0xC3F], none) := by decide

/-! ## Witnesses: states and operands that meet the hypotheses of each statement -/

theorem witness_DecodeAfterEncodeIsIdentity : (Instr.reserved4to7 0x7 0xFF).wellFormed = true := by
  decide
/-- One word for each clause: the digits 0 and 4, the digits 5 to 7, OPC 1, 2, 3, 0, 4 and 7. -/
theorem witness_DecodingFollowsTheOpcodeMap :
    (opcOf 0x800).toNat = 8 + (0 : Digit).val ∧ (opcOf 0xCFF).toNat = 8 + (4 : Digit).val ∧
    opcOf 0xD00 = 0xD ∧ opcOf 0xEAA = 0xE ∧ opcOf 0xFFF = 0xF ∧ opcOf 0x1FF = 0x1 ∧
    opcOf 0x2FF = 0x2 ∧ opcOf 0x3AB = 0x3 ∧ opcOf 0x0FF = 0x0 ∧ 4 ≤ (opcOf 0x400).toNat ∧
    (opcOf 0x7FF).toNat ≤ 7 := by decide
theorem witness_StartBeginsTheCycle :
    State.reset.run = false ∧ State.reset.Inv ∧ running.run = true := by decide
theorem witness_StartWhileRunningIsRejected : running.run = true := by decide
/-- Orders of events for each clause: still stopped, and then in phases 5 and 6. -/
theorem witness_WriteLedStoresTheByte :
    (∀ m ∈ [Move.host 0x879, .execute, .complete 0], isRst m = false ∧ offersLed m = false) ∧
    (∃ t u, exec (.wrLed 1) State.reset = .next t ∧
      runMoves [.host 0x879, .execute, .complete 0] t = .next u ∧ u.run = false) ∧
    (∃ t u, exec (.wrLed 1) (runningAt 4) = .next t ∧
      runMoves [.host 0x879, .execute, .complete 0] t = .next u ∧ u.run = true ∧ u.phase = 5) ∧
    ∃ t u, exec (.wrLed 1) (runningAt 5) = .next t ∧
      runMoves [.host 0x879, .execute, .complete 0] t = .next u ∧ u.run = true ∧ u.phase = 6 :=
  ⟨by decide, ⟨_, _, rfl, rfl, rfl⟩, ⟨_, _, rfl, rfl, rfl, rfl⟩, _, _, rfl, rfl, rfl, rfl⟩
/-- The digits at both ends, with another digit written and a sweep's wrap in between. -/
theorem witness_WriteSegStoresTheDigit :
    (∀ m ∈ [Move.host 0x950, .execute, .complete 0], isRst m = false ∧ offersSeg 0 m = false) ∧
    (∃ t u, exec (segCommand 0 1) (runningAt 6) = .next t ∧
      runMoves [.host 0x950, .execute, .complete 0] t = .next u ∧ u.run = true ∧
      u.phase.toNat = (0 : Digit).val) ∧
    (∀ m ∈ [Move.host 0x950, .execute, .complete 0], isRst m = false ∧ offersSeg 4 m = false) ∧
    (∃ t u, exec (segCommand 4 1) (runningAt 3) = .next t ∧
      runMoves [.host 0x950, .execute, .complete 0] t = .next u ∧ u.run = true ∧
      u.phase.toNat = (4 : Digit).val) ∧ (1 : Digit) ≠ 0 :=
  ⟨by decide, ⟨_, _, rfl, rfl, rfl, rfl⟩, by decide, ⟨_, _, rfl, rfl, rfl, rfl⟩, by decide⟩
theorem witness_EachCommandGivesOneResponse :
    (Instr.rdBtn 0).isHostCommand = true ∧ (Instr.wrLed 0).isHostCommand = true ∧
    (∀ x, Instr.wrLed 0 ≠ .rdBtn x) := ⟨rfl, rfl, by simp⟩
theorem witness_RejectedCommandChangesNothing :
    ∃ t, exec (.start 0) running = .next t ∧ t.rsps = running.rsps ++ [0x300] ∧
      rspStatus 0x300 ≠ 0 := ⟨_, rfl, rfl, by decide⟩
/-- One word for each clause at the ends of its range. -/
theorem witness_ErrorIsFixedByTheOpcode :
    8 ≤ (opcOf 0x800).toNat ∧ (opcOf 0xCFF).toNat ≤ 12 ∧ 13 ≤ (opcOf 0xD00).toNat ∧
    opcOf 0x100 = 0x1 ∧ (opcOf 0x200 = 0x2 ∧ opcOf 0x300 = 0x3) ∧
    (opcOf 0x000 = 0x0 ∧ 4 ≤ (opcOf 0x400).toNat ∧ (opcOf 0x7FF).toNat ≤ 7) := by decide
theorem witness_HostCommandFrame :
    (Instr.rdBtn 0).isHostCommand = true ∧ (∀ d, Instr.rdBtn 0 ≠ .wrLed d) ∧
    (∀ k d, Instr.rdBtn 0 ≠ segCommand k d) ∧ (∀ x, Instr.rdBtn 0 ≠ .start x) ∧ running.Inv := by
  refine ⟨rfl, by simp, ?_, by simp, by decide⟩
  intro k d
  fin_cases k <;> simp [segCommand]
theorem witness_PhaseZeroLatchesButtonsAndQueuesDigitZero : (runningAt 0).phase = 0 := by decide
theorem witness_PhasesOneToFourQueueTheirDigits :
    (runningAt 1).phase = 1 ∧ (runningAt 2).phase = 2 ∧ (runningAt 3).phase = 3 ∧
    (runningAt 4).phase = 4 := by decide
theorem witness_PhaseFiveEndsTheSweep :
    (runningAt 5).phase = 5 ∧ (runningAt 5).run = true ∧ (runningAt 5).Inv := by decide
theorem witness_PhaseSixStartsTheNextSweep :
    (runningAt 6).phase = 6 ∧ (runningAt 6).run = true ∧ (runningAt 6).Inv := by decide
theorem witness_PhaseSevenIsTheModelFault :
    (runningAt 7).run = true ∧ (runningAt 7).phase = 7 ∧
    ∃ t, (runningAt 6).phase ≠ 7 ∧ exec (.ph6 0) (runningAt 6) = .next t :=
  ⟨rfl, rfl, _, by decide, rfl⟩
theorem witness_SequencerActionFrame :
    (Instr.ph4 0).isHostCommand = false ∧ (∀ rx, Instr.ph4 0 ≠ .ph7 rx) ∧ (runningAt 4).phase ≠ 7 ∧
    (∀ rx, Instr.ph4 0 ≠ .ph0 rx) ∧ (∀ rx, Instr.ph4 0 ≠ .ph5 rx ∧ Instr.ph4 0 ≠ .ph6 rx) :=
  ⟨rfl, by simp, by decide, by simp, by simp⟩
theorem witness_ReceivedByteIsIgnoredInPhasesOneToSix :
    (runningAt 1).phase ≠ 0 ∧ (runningAt 1).phase ≠ 7 ∧ (runningAt 6).phase ≠ 0 ∧
    (runningAt 6).phase ≠ 7 := by decide
theorem witness_PhaseCountsCompletionsModuloSeven : running.run = true ∧ running.phase = 0 := by
  decide
theorem witness_SweepQueuesTheFrameThenLedTwice : running.run = true ∧ running.phase = 0 := by
  decide
/-- A list of completions for each clause. -/
theorem witness_FramingRepeatsEverySweep :
    running.run = true ∧ running.phase = 0 ∧ (List.replicate 12 (0 : Byte)).length % 7 = 5 ∧
    (List.replicate 13 (0 : Byte)).length % 7 = 6 ∧ (List.replicate 11 (0 : Byte)).length % 7 < 5 := by
  decide
theorem witness_WireCarriesTheSweepFromStartOn : State.reset.Inv ∧ State.reset.run = false := by
  decide
theorem witness_HostCannotDisturbTheFraming :
    running.Inv ∧ running.run = true ∧ running.phase = 0 ∧
    ∀ m ∈ [Move.host 0x23C, .complete 1, .execute, .complete 2, .idle], isRst m = false := by decide
theorem witness_CompletionEmitsOneWireEvent :
    running.run = true ∧ State.reset.run = false ∧ running.phase ≠ 7 := by decide
theorem witness_WireOnlyGrowsByTheTransferInFlight :
    ∃ t, step { running with inputs := [.complete 1] } = .next t := ⟨_, rfl⟩
theorem witness_TransferInFlightCompletes :
    State.Inv { running with inputs := [.host 0x300, .complete 1] } ∧ running.run = true ∧
    [Move.host 0x300, .complete 1] = [.host 0x300] ++ .complete 1 :: [] ∧
    ∀ m ∈ [Move.host 0x300], isRst m = false := by decide
theorem witness_StepExecutesTheOutstandingCommand :
    (running.place (.cmd 0x300)).cmd = some 0x300 ∧
    (running.place (.cmd 0x300)).inputs = .execute :: [] := by decide
theorem witness_StepRunsTheActionPhaseSelects :
    (running.loadMoves [.complete 1]).run = true ∧
    (running.loadMoves [.complete 1]).inputs = .complete 1 :: [] := by decide
/-- Both clauses: with none outstanding, and with one. -/
theorem witness_CommandPortTakesOneCommandAtATime :
    (running.loadMoves [.host 0x300]).inputs = .host 0x300 :: [] ∧
    (running.loadMoves [.host 0x300]).cmd = none ∧
    State.cmd { running with cmd := some 0x23C } = some 0x23C := by decide
theorem witness_NothingCompletesBeforeStart :
    (State.reset.loadMoves [.complete 1]).run = false ∧
    (State.reset.loadMoves [.complete 1]).inputs = .complete 1 :: [] := by decide
theorem witness_UndecidedEventsAreFree : running.inputs = [] := by decide
theorem witness_ResetAbandonsEverything :
    (running.loadMoves [.rst, .idle]).inputs = .rst :: [.idle] := by decide
theorem witness_StepKeepsTheHardwareStates :
    ∃ t, State.Inv { runningAt 5 with inputs := [.complete 1] } ∧
      step { runningAt 5 with inputs := [.complete 1] } = .next t := ⟨_, by decide, rfl⟩
theorem witness_HardwareStatesNeverFault : (runningAt 6).Inv ∧ State.reset.Inv := by decide
/-- Both directions: a reset while running, and a START from reset. -/
theorem witness_RunChangesOnlyByStartAndReset :
    (∃ t, step { running with inputs := [.rst] } = .next t ∧ t.run ≠ running.run) ∧
    ∃ t, step (State.reset.withFetchWord 16 0x100) = .next t ∧ t.run ≠ State.reset.run :=
  ⟨⟨_, rfl, by decide⟩, _, rfl, by decide⟩
theorem witness_ButtonsChangeOnlyInPhaseZero :
    ∃ t, step { running with inputs := [.complete 1] } = .next t ∧ t.btn ≠ running.btn :=
  ⟨_, rfl, by decide⟩
/-- Both edges: the completions in phases 5 and 6. -/
theorem witness_FramingLineChangesOnlyInPhasesFiveAndSix :
    (runningAt 5).Inv ∧ (runningAt 6).Inv ∧
    (∃ t, step { runningAt 5 with inputs := [.complete 1] } = .next t ∧ t.cs ≠ (runningAt 5).cs) ∧
    ∃ t, step { runningAt 6 with inputs := [.complete 1] } = .next t ∧ t.cs ≠ (runningAt 6).cs :=
  ⟨by decide, by decide, ⟨_, rfl, by decide⟩, _, rfl, by decide⟩
theorem witness_PhaseChangesOnlyByCompletions :
    ∃ t, step { runningAt 6 with inputs := [.complete 1] } = .next t ∧
      t.phase ≠ (runningAt 6).phase := ⟨_, rfl, by decide⟩
theorem witness_LedChangesOnlyByWriteLed :
    ∃ t, step (running.withFetchWord 16 0x23C) = .next t ∧ t.led ≠ running.led :=
  ⟨_, rfl, by decide⟩
theorem witness_DigitChangesOnlyByItsWriteSeg :
    ∃ t, step (running.withFetchWord 16 0xC00) = .next t ∧ t.seg.read 4 ≠ running.seg.read 4 :=
  ⟨_, rfl, by decide⟩
/-- A completion, and a START with another LED. -/
theorem witness_QueuedByteIsASample :
    (∃ t, step { running with inputs := [.complete 1] } = .next t ∧ t.txd ≠ running.txd) ∧
    ∃ t, step (State.withFetchWord { State.reset with led := 1 } 16 0x100) = .next t ∧
      t.txd ≠ State.reset.txd :=
  ⟨⟨_, rfl, by decide⟩, _, rfl, by decide⟩
theorem witness_LedIsSampledTwicePerSweep : (runningAt 5).run = true ∧ (runningAt 5).phase = 5 := by
  decide
/-- A code for each clause: clear, an unsupported one, and the first and last supported ones. -/
theorem witness_SegmentEncoderResult :
    clearCode = 0x20 ∧ (0x68 : Byte) ∉ ([0x30, 0x31, 0x32, 0x33, 0x34, 0x35, 0x36, 0x37, 0x38, 0x39,
      0x48, 0x45, 0x4C, 0x72, 0x6F] : List Byte) ∧
    glyphOf 0x30 = some .d0 ∧ glyphOf 0x6F = some .smallO := by decide
theorem witness_BitOrderRoundTrip : (0 : Nat) < 8 ∧ (7 : Nat) < 8 := by decide
theorem witness_AssembledLinesDecode : (4 : Nat) < 5 := by decide
/-- Each of the three clauses: a reset, a completion, and another move. -/
theorem witness_OnlyResetAbandonsATransfer :
    (runningAt 6).inFlight = some ⟨false, 0xA5⟩ ∧
    (∃ t, step ((runningAt 6).loadMoves [.rst]) = .next t ∧
      ((runningAt 6).loadMoves [.rst]).nextMove = .rst) ∧
    (∃ t, step ((runningAt 6).loadMoves [.complete 1]) = .next t ∧
      ((runningAt 6).loadMoves [.complete 1]).nextMove = .complete 1) ∧
    ∃ t, step ((runningAt 6).loadMoves [.host 0x100]) = .next t ∧
      ((runningAt 6).loadMoves [.host 0x100]).nextMove = .host 0x100 :=
  ⟨rfl, ⟨_, rfl, rfl⟩, ⟨_, rfl, rfl⟩, _, rfl, rfl⟩
/-- With an input decided, and with none, where the free order decides. -/
theorem witness_EveryTransferEndsUnlessReset :
    (runningAt 6).Inv ∧ (runningAt 6).inFlight = some ⟨false, 0xA5⟩ ∧ (runningAt 6).inputs = [] ∧
    State.Inv (running.loadMoves [.idle, .host 0x100]) ∧
    (running.loadMoves [.idle, .host 0x100]).inFlight = some ⟨true, 0xA5⟩ := by decide

end Sys2Proof.Tests
end

/-! PROOFS. The family 10_state: what one event can do to the registers, said once, and the statements about
the registers derived from it. -/

namespace Sys2Proof.Machine

/-! ## The hardware's states -/

/-- Before START the framing line is asserted (R31, R37). -/
theorem State.Inv.cs_of_stopped {s : State} (hi : s.Inv) (hr : s.run = false) : s.cs = true := by
  obtain ⟨-, hcs, hphase⟩ := hi
  have h6 : s.phase ≠ 6 := by
    rw [hphase hr]
    decide
  exact Bool.eq_true_of_not_eq_false fun h => h6 (hcs.mp h)

/-- Taking the next move off the inputs leaves the registers the invariant speaks of. -/
theorem takeMove_inv {s : State} : s.takeMove.Inv ↔ s.Inv := by
  simp only [State.Inv, State.takeMove_phase, State.takeMove_cs, State.takeMove_run]

/-- The clean reset state is a hardware state (R27, R31, R32). -/
theorem reset_inv : State.reset.Inv := by
  decide

/-- `rst` leads to a hardware state from any state (R27, R31, R32). -/
theorem assertReset_inv (s : State) : s.assertReset.Inv :=
  reset_inv

/-- START in a stopped hardware state leads to a hardware state (R152). -/
theorem State.Inv.started {s : State} (hi : s.Inv) (hr : s.run = false) :
    (((s.setCs true).queue s.led).setRun).Inv := by
  have hcs := hi.cs_of_stopped hr
  obtain ⟨h7, hcs6, -⟩ := hi
  exact ⟨h7, hcs ▸ hcs6, fun h => Bool.noConfusion h⟩

/-- PHASE becomes 6 from 5 alone (R122). -/
theorem nextPhase_eq_six_iff (p : PhaseVal) : nextPhase p = 6 ↔ p = 5 := by
  revert p
  decide

/-- Every blank digit reads 0 (R20). -/
@[simp] theorem SegFile.read_blank (k : Digit) : SegFile.blank.read k = 0 := by
  fin_cases k <;> rfl

/-! ## What the action PHASE selects does -/

/-- The state after the action PHASE selects, in terms of PHASE: BTN is written in phase 0, CS in the phases
5 and 6, the byte of the phase is queued, and PHASE advances (R122 to R129). -/
def State.afterAction (s : State) (rx : Byte) : State :=
  { s with
    btn := if s.phase = 0 then rx else s.btn
    cs := if s.phase = 5 then false else if s.phase = 6 then true else s.cs
    txd := queuedByte s s.phase.toNat
    phase := nextPhase s.phase }

@[simp] theorem State.afterAction_led (s : State) (rx : Byte) : (s.afterAction rx).led = s.led := rfl
@[simp] theorem State.afterAction_seg (s : State) (rx : Byte) : (s.afterAction rx).seg = s.seg := rfl
@[simp] theorem State.afterAction_phase (s : State) (rx : Byte) :
    (s.afterAction rx).phase = nextPhase s.phase := rfl
@[simp] theorem State.afterAction_run (s : State) (rx : Byte) : (s.afterAction rx).run = s.run := rfl
@[simp] theorem State.afterAction_txd (s : State) (rx : Byte) :
    (s.afterAction rx).txd = queuedByte s s.phase.toNat := rfl
@[simp] theorem State.afterAction_cmd (s : State) (rx : Byte) : (s.afterAction rx).cmd = s.cmd := rfl
@[simp] theorem State.afterAction_rsps (s : State) (rx : Byte) : (s.afterAction rx).rsps = s.rsps := rfl
@[simp] theorem State.afterAction_wire (s : State) (rx : Byte) : (s.afterAction rx).wire = s.wire := rfl
@[simp] theorem State.afterAction_inputs (s : State) (rx : Byte) :
    (s.afterAction rx).inputs = s.inputs := rfl
@[simp] theorem State.afterAction_drawn (s : State) (rx : Byte) : (s.afterAction rx).drawn = s.drawn := rfl

/-- The action of phase 0 stores the received byte in BTN (R123). -/
theorem State.afterAction_btn_of_zero {s : State} (h : s.phase = 0) (rx : Byte) :
    (s.afterAction rx).btn = rx :=
  if_pos h
/-- Outside phase 0 no action writes BTN (R36). -/
theorem State.afterAction_btn_of_ne {s : State} (h : s.phase ≠ 0) (rx : Byte) :
    (s.afterAction rx).btn = s.btn :=
  if_neg h
/-- The action of phase 5 deasserts CS (R128). -/
theorem State.afterAction_cs_of_five {s : State} (h : s.phase = 5) (rx : Byte) :
    (s.afterAction rx).cs = false :=
  if_pos h
/-- The action of phase 6 asserts CS (R129). -/
theorem State.afterAction_cs_of_six {s : State} (h : s.phase = 6) (rx : Byte) :
    (s.afterAction rx).cs = true :=
  (if_neg (by rw [h]; decide)).trans (if_pos h)
/-- Outside the phases 5 and 6 no action writes CS (R155). -/
theorem State.afterAction_cs_of_ne {s : State} (h5 : s.phase ≠ 5) (h6 : s.phase ≠ 6) (rx : Byte) :
    (s.afterAction rx).cs = s.cs :=
  (if_neg h5).trans (if_neg h6)

/-- The legal values of PHASE (R28). -/
theorem phase_cases {p : PhaseVal} (h7 : p ≠ 7) :
    p = 0 ∨ p = 1 ∨ p = 2 ∨ p = 3 ∨ p = 4 ∨ p = 5 ∨ p = 6 := by
  revert p
  decide

/-- Where PHASE is legal the action it selects answers, with `afterAction`. -/
theorem exec_decodePhase_of_legal (rx : Byte) {s : State} (h7 : s.phase ≠ 7) :
    exec (decodePhase s.phase rx) s = .next (s.afterAction rx) := by
  obtain ⟨led, btn, seg, phase, cs, run, txd, cmd, rsps, wire, inputs, drawn⟩ := s
  have hp : phase = _ ∨ _ := phase_cases h7
  rcases hp with rfl | rfl | rfl | rfl | rfl | rfl | rfl
  all_goals rfl

/-- Everything the action PHASE selects can do when it answers. -/
theorem exec_decodePhase_spec {rx : Byte} {s t : State}
    (h : exec (decodePhase s.phase rx) s = .next t) : s.phase ≠ 7 ∧ t = s.afterAction rx := by
  have h7 := (exec_sequencer (decodePhase_not_isHostCommand s.phase rx) h).1
  rw [exec_decodePhase_of_legal rx h7] at h
  cases h
  exact ⟨h7, rfl⟩

/-- The action PHASE selects keeps the invariant while a transfer is in flight: CS is 0 exactly after
phase 5 (R37). -/
theorem State.Inv.afterAction {s : State} (hi : s.Inv) (hr : s.run = true) (rx : Byte) :
    (s.afterAction rx).Inv := by
  obtain ⟨-, hcs, -⟩ := hi
  refine ⟨nextPhase_ne_seven s.phase, ?_, fun h => Bool.noConfusion (hr.symm.trans h)⟩
  rw [State.afterAction_phase, nextPhase_eq_six_iff]
  by_cases h5 : s.phase = 5
  · simp only [State.afterAction_cs_of_five h5, h5]
  · by_cases h6 : s.phase = 6
    · simp only [State.afterAction_cs_of_six h6, h5, Bool.true_eq_false]
    · simp only [State.afterAction_cs_of_ne h5 h6, hcs, h5, h6]

/-! ## What a host command does, by name -/

/-- The effect of each host command before its response: `exec_hostCommand` with the command that has the
effect named (R152, R181, R182, and none for the others). -/
theorem exec_hostCommand_named (i : Instr) (s : State) (h : i.isHostCommand = true) :
    ∃ u st rd, exec i s = .next (u.respond st rd) ∧
      (u = s ∨ (∃ d, i = .wrLed d ∧ u = s.setLed d) ∨
        (∃ k d, i = segCommand k d ∧ u = s.setSeg k d) ∨
        ∃ x, i = .start x ∧ s.run = false ∧ u = ((s.setCs true).queue s.led).setRun) := by
  cases i <;> try cases h
  case start x =>
    cases hr : s.run
    · exact ⟨_, _, _, execStart_stopped x hr, .inr (.inr (.inr ⟨x, rfl, rfl, rfl⟩))⟩
    · exact ⟨s, _, _, execStart_running x hr, .inl rfl⟩
  case wrLed d => exact ⟨_, _, _, rfl, .inr (.inl ⟨d, rfl, rfl⟩)⟩
  case wrSeg0 d => exact ⟨_, _, _, rfl, .inr (.inr (.inl ⟨0, d, rfl, rfl⟩))⟩
  case wrSeg1 d => exact ⟨_, _, _, rfl, .inr (.inr (.inl ⟨1, d, rfl, rfl⟩))⟩
  case wrSeg2 d => exact ⟨_, _, _, rfl, .inr (.inr (.inl ⟨2, d, rfl, rfl⟩))⟩
  case wrSeg3 d => exact ⟨_, _, _, rfl, .inr (.inr (.inl ⟨3, d, rfl, rfl⟩))⟩
  case wrSeg4 d => exact ⟨_, _, _, rfl, .inr (.inr (.inl ⟨4, d, rfl, rfl⟩))⟩
  all_goals exact ⟨s, _, _, rfl, .inl rfl⟩

/-- Every action of the sequencer but PH7 answers where PHASE is legal (R130). -/
theorem exec_sequencer_answers {i : Instr} {s : State} (h : i.isHostCommand = false)
    (hi : ∀ rx, i ≠ .ph7 rx) (h7 : s.phase ≠ 7) : ∃ t, exec i s = .next t := by
  cases i <;> try cases h
  case ph7 rx => exact absurd rfl (hi rx)
  all_goals
    simp only [exec, execPh0, execPh1, execPh2, execPh3, execPh4, execPh5, execPh6]
    exact ⟨_, seqStep_of_legal h7⟩

/-! ## What one event does to the registers -/

/-- What the move `m` does to the registers of `s`, with the event that does it named. -/
inductive MoveEffect (m : Move) (s t : State) : Prop
  /-- No register changes; a command may have been accepted or answered. -/
  | quiet {c : Option CmdWord} {r : List RspWord} (ht : t = { s with cmd := c, rsps := r })
  /-- The reset (R230). -/
  | reset (hm : m = .rst) (ht : t = s.assertReset)
  /-- An executed WR_LED (R181). -/
  | writeLed {w : CmdWord} {d : Byte} {st : Status} {rd : Byte} (hm : m = .execute)
      (hc : s.cmd = some w) (hd : decode (.cmd w) = .wrLed d) (ht : t = (s.setLed d).respond st rd)
  /-- An executed WR_SEG k (R182). -/
  | writeSeg {w : CmdWord} {k : Digit} {d : Byte} {st : Status} {rd : Byte} (hm : m = .execute)
      (hc : s.cmd = some w) (hd : decode (.cmd w) = segCommand k d)
      (ht : t = (s.setSeg k d).respond st rd)
  /-- An executed START that is not rejected (R152). -/
  | start {w : CmdWord} {x : Byte} {st : Status} {rd : Byte} (hm : m = .execute)
      (hc : s.cmd = some w) (hd : decode (.cmd w) = .start x) (hr : s.run = false)
      (ht : t = (((s.setCs true).queue s.led).setRun).respond st rd)
  /-- The completion of the transfer in flight (R154). -/
  | complete {rx : Byte} (hm : m = .complete rx) (hr : s.run = true)
      (ht : t = (s.emit ⟨s.cs, s.txd, rx⟩).afterAction rx)

/-- Every move that answers has one of the effects. -/
theorem moveEffect_of_next {m : Move} {s t : State} (h : applyMove m s = .next t) :
    MoveEffect m s t := by
  rcases applyMove_cases h with rfl | ⟨hm, ht⟩ | ⟨w, -, rfl⟩ | ⟨w, hm, hc, he⟩ | ⟨rx, hm, hr, he⟩
  · exact .quiet rfl
  · exact .reset hm ht
  · unfold State.acceptCmd
    split
    · exact .quiet rfl
    · exact .quiet rfl
  · obtain ⟨u, st, rd, hu, heff⟩ := exec_hostCommand_named _ s (decodeCmd_isHostCommand w)
    cases hu.symm.trans he
    rcases heff with rfl | ⟨d, hd, rfl⟩ | ⟨k, d, hd, rfl⟩ | ⟨x, hd, hr, rfl⟩
    · exact .quiet rfl
    · exact .writeLed hm hc hd rfl
    · exact .writeSeg hm hc hd rfl
    · exact .start hm hc hd hr rfl
  · exact .complete hm hr (exec_decodePhase_spec he).2

/-- Every step that answers has one of the effects, on the state from which the move was taken. -/
theorem moveEffect_of_step {s t : State} (h : step s = .next t) :
    MoveEffect s.nextMove s.takeMove t :=
  moveEffect_of_next h

/-- Every effect of a move keeps the invariant (R28, R37, R38). -/
theorem MoveEffect.keeps_inv {m : Move} {s t : State} (h : MoveEffect m s t) (hi : s.Inv) : t.Inv := by
  cases h with
  | quiet ht => exact ht ▸ hi
  | reset hm ht => exact ht ▸ assertReset_inv s
  | writeLed hm hc hd ht => exact ht ▸ hi
  | writeSeg hm hc hd ht => exact ht ▸ hi
  | start hm hc hd hr ht => exact ht ▸ hi.started hr
  | @complete rx hm hr ht =>
    have he : (s.emit ⟨s.cs, s.txd, rx⟩).Inv := hi
    exact ht ▸ he.afterAction hr rx

/-! ## The statements -/

/-- Settles O39: each effect of a move keeps the invariant. -/
theorem stepKeepsTheHardwareStates : Obligations.StepKeepsTheHardwareStates := by
  intro s t hi h
  exact (moveEffect_of_step h).keeps_inv (takeMove_inv.mpr hi)

/-- Settles O15: by the effect each command has before its response. -/
theorem hostCommandFrame : Obligations.HostCommandFrame := by
  intro i s h
  obtain ⟨u, st, rd, hu, heff⟩ := exec_hostCommand_named i s h
  refine ⟨_, hu, ?_⟩
  rcases heff with rfl | ⟨d, rfl, rfl⟩ | ⟨k, d, rfl, rfl⟩ | ⟨x, rfl, hr, rfl⟩
  · simp [State.SameEnvironment]
  · simp [State.SameEnvironment]
  · simp [State.SameEnvironment]
  · exact ⟨rfl, rfl, rfl, ⟨rfl, rfl⟩, fun _ => rfl, fun _ => rfl, fun hx => absurd rfl (hx x),
      fun hi => (hi.cs_of_stopped hr).symm⟩

/-- Settles O21: by what an action that answers can write besides TXD and PHASE. -/
theorem sequencerActionFrame : Obligations.SequencerActionFrame := by
  intro i s h hi h7
  obtain ⟨t, ht⟩ := exec_sequencer_answers h hi h7
  obtain ⟨-, u, b, rfl, heff⟩ := exec_sequencer h ht
  refine ⟨_, ht, ?_⟩
  rcases heff with rfl | ⟨rx, rfl, rfl⟩ | ⟨rx, rfl, rfl⟩ | ⟨rx, rfl, rfl⟩ <;>
    simp [State.SameEnvironment, nextPhase_toNat]

/-- Settles O42: of the effects of a step only START and the reset write RUN. -/
theorem runChangesOnlyByStartAndReset : Obligations.RunChangesOnlyByStartAndReset := by
  intro s t h hne
  cases moveEffect_of_step h with
  | quiet ht => simp [ht] at hne
  | reset hm ht => exact .inl ⟨by simpa [ht] using hne, hm⟩
  | writeLed hm hc hd ht => simp [ht] at hne
  | writeSeg hm hc hd ht => simp [ht] at hne
  | start hm hc hd hr ht => exact .inr ⟨by simpa using hr, hm, _, _, by simpa using hc, hd⟩
  | complete hm hr ht => simp [ht] at hne

/-- Settles O43: of the effects of a step only the reset and the completion in phase 0 write BTN. -/
theorem buttonsChangeOnlyInPhaseZero : Obligations.ButtonsChangeOnlyInPhaseZero := by
  intro s t h hne
  cases moveEffect_of_step h with
  | quiet ht => simp [ht] at hne
  | reset hm ht => exact .inl hm
  | writeLed hm hc hd ht => simp [ht] at hne
  | writeSeg hm hc hd ht => simp [ht] at hne
  | start hm hc hd hr ht => simp [ht] at hne
  | complete hm hr ht =>
    by_cases h0 : s.phase = 0
    · exact .inr ⟨_, hm, by simpa using hr, h0, by rw [ht, State.afterAction_btn_of_zero (by simpa)]⟩
    · rw [ht, State.afterAction_btn_of_ne (by simpa)] at hne
      simp at hne

/-- Settles O44: of the effects of a step only the reset and the completions in the phases 5 and 6 change CS;
START writes the level it has in every stopped hardware state. -/
theorem framingLineChangesOnlyInPhasesFiveAndSix :
    Obligations.FramingLineChangesOnlyInPhasesFiveAndSix := by
  intro s t hi h hne
  cases moveEffect_of_step h with
  | quiet ht => simp [ht] at hne
  | reset hm ht => exact .inl hm
  | writeLed hm hc hd ht => simp [ht] at hne
  | writeSeg hm hc hd ht => simp [ht] at hne
  | start hm hc hd hr ht =>
    have hcs : s.cs = true := hi.cs_of_stopped (by simpa using hr)
    simp [ht, hcs] at hne
  | complete hm hr ht =>
    refine .inr ⟨_, hm, by simpa using hr, ?_⟩
    by_cases h5 : s.phase = 5
    · exact .inl ⟨h5, by rw [ht, State.afterAction_cs_of_five (by simpa)]⟩
    · by_cases h6 : s.phase = 6
      · exact .inr ⟨h6, by rw [ht, State.afterAction_cs_of_six (by simpa)]⟩
      · rw [ht, State.afterAction_cs_of_ne (by simpa) (by simpa)] at hne
        simp at hne

/-- Settles O45: of the effects of a step only the reset and the completion write PHASE. -/
theorem phaseChangesOnlyByCompletions : Obligations.PhaseChangesOnlyByCompletions := by
  intro s t h hne
  cases moveEffect_of_step h with
  | quiet ht => simp [ht] at hne
  | reset hm ht => exact .inl hm
  | writeLed hm hc hd ht => simp [ht] at hne
  | writeSeg hm hc hd ht => simp [ht] at hne
  | start hm hc hd hr ht => simp [ht] at hne
  | complete hm hr ht => exact .inr ⟨_, hm, by simpa using hr, by simp [ht, nextPhase_toNat]⟩

/-- Settles O46: of the effects of a step only the reset and WR_LED write LED. -/
theorem ledChangesOnlyByWriteLed : Obligations.LedChangesOnlyByWriteLed := by
  intro s t h hne
  cases moveEffect_of_step h with
  | quiet ht => simp [ht] at hne
  | reset hm ht => exact .inl hm
  | writeLed hm hc hd ht => exact .inr ⟨hm, _, _, by simpa using hc, hd, by simp [ht]⟩
  | writeSeg hm hc hd ht => simp [ht] at hne
  | start hm hc hd hr ht => simp [ht] at hne
  | complete hm hr ht => simp [ht] at hne

/-- Settles O47: of the effects of a step only the reset and WR_SEG write the segment file, and WR_SEG j
leaves the digits other than j. -/
theorem digitChangesOnlyByItsWriteSeg : Obligations.DigitChangesOnlyByItsWriteSeg := by
  intro k s t h hne
  cases moveEffect_of_step h with
  | quiet ht => simp [ht] at hne
  | reset hm ht => exact .inl hm
  | writeLed hm hc hd ht => simp [ht] at hne
  | @writeSeg w j d _ _ hm hc hd ht =>
    by_cases hk : k = j
    · subst hk
      exact .inr ⟨hm, w, d, by simpa using hc, hd, by simp [ht]⟩
    · simp [ht, SegFile.read_write_other _ j k d hk] at hne
  | start hm hc hd hr ht => simp [ht] at hne
  | complete hm hr ht => simp [ht] at hne

/-- Settles O48: of the effects of a step only the reset, START and the completion write TXD. -/
theorem queuedByteIsASample : Obligations.QueuedByteIsASample := by
  intro s t h hne
  cases moveEffect_of_step h with
  | quiet ht => simp [ht] at hne
  | reset hm ht => exact .inl hm
  | writeLed hm hc hd ht => simp [ht] at hne
  | writeSeg hm hc hd ht => simp [ht] at hne
  | start hm hc hd hr ht => exact .inr (.inr ⟨hm, _, _, by simpa using hc, hd⟩)
  | complete hm hr ht => exact .inr (.inl ⟨_, hm, by simpa using hr⟩)

/-- Settles O37: the reset state is given field by field, and every blank digit reads 0. -/
theorem cleanResetState : Obligations.CleanResetState :=
  ⟨rfl, rfl, SegFile.read_blank, rfl, rfl, rfl, rfl, rfl, rfl, rfl⟩

/-- Settles O40. -/
theorem resetIsAHardwareState : Obligations.ResetIsAHardwareState :=
  reset_inv

end Sys2Proof.Machine

/-! PROOFS. The family 20_memory: the step of a state is the step of the state in which its free stretch is
drawn already. -/

namespace Sys2Proof.Machine

/-! ## A step after the stretch is drawn -/

@[simp] theorem State.draw_cmdReady (s : State) : s.draw.cmdReady = s.cmdReady := by
  simp only [State.cmdReady, State.draw_cmd]
@[simp] theorem State.draw_offered (s : State) : s.draw.offered = s.offered := by
  simp only [State.offered, State.draw_draw]
@[simp] theorem State.draw_hostWaits (s : State) : s.draw.hostWaits = s.hostWaits := by
  simp only [State.hostWaits, State.draw_offered, State.draw_cmdReady]
@[simp] theorem State.draw_nextMove (s : State) : s.draw.nextMove = s.nextMove := by
  simp only [State.nextMove, State.draw_hostWaits, State.draw_offered]
@[simp] theorem State.draw_takeMove (s : State) : s.draw.takeMove = s.takeMove := by
  simp only [State.takeMove, State.draw_hostWaits, State.draw_draw]

/-- A step draws the stretch it needs itself, so drawing it beforehand changes nothing (log 2). -/
@[simp] theorem step_draw (s : State) : step s.draw = step s := by
  simp only [step_eq, State.draw_nextMove, State.draw_takeMove]

/-- Settles O35: the state on the right is the one in which the stretch is drawn. -/
theorem undecidedEventsAreFree : Obligations.UndecidedEventsAreFree := by
  intro s hs
  calc step s = step s.draw := (step_draw s).symm
    _ = step { s with inputs := (Config.schedule s.drawn).moves, drawn := s.drawn + 1 } := by
      rw [State.draw_of_undecided hs]

end Sys2Proof.Machine

/-! PROOFS. The family 30_encoding: decoding as a function of the two fields of a command word, the two round
trips, the words of the assembler, and the one response of a command. -/

namespace Sys2Proof

/-! ## Decoding in terms of OPC and DATA -/

/-- The function of R74 on the two fields of a command word. -/
def decodeFields (opc : Opc) (d : Byte) : Instr :=
  if opc.getLsbD 3 then decodeWrSeg (digitOf opc) d
  else if opc = 0x1 then .start d
  else if opc = 0x2 then .wrLed d
  else if opc = 0x3 then .rdBtn d
  else if opc = 0x0 then .reserved0 d
  else .reserved4to7 opc d

/-- Decoding reads a command word through its two fields alone (R74). -/
theorem decode_cmd (w : CmdWord) : decode (.cmd w) = decodeFields (opcOf w) (dataOf w) :=
  rfl

theorem decode_cmdWord (opc : Opc) (d : Byte) :
    decode (.cmd (cmdWord opc d)) = decodeFields opc d := by
  rw [decode_cmd, opcOf_cmdWord, dataOf_cmdWord]

/-- The opcodes of the row RESERVED(OPC 0x4..0x7) (R73). -/
theorem isReserved4to7_iff (opc : Opc) :
    isReserved4to7 opc = true ↔ 4 ≤ opc.toNat ∧ opc.toNat ≤ 7 := by
  revert opc
  decide

theorem decodeFields_reserved4to7 {opc : Opc} (h : isReserved4to7 opc = true) (d : Byte) :
    decodeFields opc d = .reserved4to7 opc d := by
  have hopc : opc = 0x4 ∨ opc = 0x5 ∨ opc = 0x6 ∨ opc = 0x7 := by
    simpa [isReserved4to7, or_assoc] using h
  rcases hopc with rfl | rfl | rfl | rfl <;> rfl

/-- The opcode of `WR_SEG k` (R73). -/
def segOpc (k : Digit) : Opc := BitVec.ofNat 4 (8 + k.val)

@[simp] theorem segOpc_toNat (k : Digit) : (segOpc k).toNat = 8 + k.val := by
  revert k
  decide

theorem decodeFields_segOpc (k : Digit) (d : Byte) :
    decodeFields (segOpc k) d = Machine.segCommand k d := by
  fin_cases k <;> rfl

/-! ## The two round trips -/

/-- Decoding gives back every well-formed instruction: the row of each command has its own opcode and
each action its own value of PHASE. -/
theorem decode_encode {i : Instr} (h : i.wellFormed = true) : decode (encode i) = i := by
  cases i
  case reserved4to7 opc d => exact (decode_cmdWord opc d).trans (decodeFields_reserved4to7 h d)
  case ph0 | ph1 | ph2 | ph3 | ph4 | ph5 | ph6 | ph7 => rfl
  all_goals exact decode_cmdWord _ _

/-- The values of a 3-bit field: PHASE, or the digit index of a `WR_SEG`. -/
theorem threeBits_cases (v : BitVec 3) :
    v = 0 ∨ v = 1 ∨ v = 2 ∨ v = 3 ∨ v = 4 ∨ v = 5 ∨ v = 6 ∨ v = 7 := by
  revert v
  decide

/-- An opcode with bit 3 set is that bit and the digit index (R72). -/
theorem opc_eq_of_bit3 {opc : Opc} (h : opc.getLsbD 3 = true) : opc = 1#1 ++ digitOf opc := by
  revert opc
  decide

theorem encode_decodeWrSeg (k : BitVec 3) (d : Byte) :
    encode (decodeWrSeg k d) = .cmd (cmdWord (1#1 ++ k) d) := by
  rcases threeBits_cases k with rfl | rfl | rfl | rfl | rfl | rfl | rfl | rfl <;> rfl

theorem encode_decodePhase (p : PhaseVal) (rx : Byte) :
    encode (decodePhase p rx) = .seq p rx := by
  rcases threeBits_cases p with rfl | rfl | rfl | rfl | rfl | rfl | rfl | rfl <;> rfl

/-- No bit of the two fields is lost: each branch of the decoder keeps DATA, and its test fixes OPC. -/
theorem encode_decodeFields (opc : Opc) (d : Byte) :
    encode (decodeFields opc d) = .cmd (cmdWord opc d) := by
  unfold decodeFields
  split_ifs with h3 h1 h2 hb h0
  · rw [encode_decodeWrSeg, ← opc_eq_of_bit3 h3]
  · rw [h1, encode]
  · rw [h2, encode]
  · rw [hb, encode]
  · rw [h0, encode]
  · rw [encode]

/-! ## The words of the assembler -/

/-- A command word as the numeral the assembler writes: `OPC * 0x100 + DATA` (R82). -/
theorem ofNat_eq_cmdWord (opc : Opc) (d : Byte) :
    BitVec.ofNat 12 (opc.toNat * 256 + d.toNat) = cmdWord opc d := by
  rw [← cmdWord_toNat, BitVec.ofNat_toNat, BitVec.setWidth_eq]

namespace Machine

theorem byteOperand_toNat (d : Byte) : byteOperand d.toNat = some d := by
  rw [byteOperand, if_pos d.isLt, BitVec.ofNat_toNat, BitVec.setWidth_eq]

theorem wrLedWord_toNat (d : Byte) : wrLedWord d.toNat = some (cmdWord 0x2 d) := by
  simp only [wrLedWord, byteOperand_toNat]
  exact congrArg some (ofNat_eq_cmdWord 0x2 d)

theorem wrSegWord_toNat (k : Digit) (d : Byte) :
    wrSegWord k.val d.toNat = some (cmdWord (segOpc k) d) := by
  have hk : k.val ≤ 4 := Nat.le_of_lt_succ k.isLt
  have hw : 0x800 + k.val * 0x100 + d.toNat = (segOpc k).toNat * 256 + d.toNat := by
    rw [segOpc_toNat]
    omega
  simp only [wrSegWord, byteOperand_toNat, if_pos hk, hw, ofNat_eq_cmdWord]

/-- A digit above 4 is refused, whatever its byte (R82). -/
theorem wrSegWord_of_gt {k : Nat} (h : 4 < k) (d : Nat) : wrSegWord k d = none := by
  unfold wrSegWord
  split
  · exact if_neg (Nat.not_le_of_lt h)
  · rfl

/-! ## The one response of a command -/

/-- RD_BTN answers OK with BTN (R184). -/
theorem exec_rdBtn (x : Byte) (s : State) : exec (.rdBtn x) s = .next (s.respond .ok s.btn) :=
  rfl

/-- Every host command other than RD_BTN answers with RDATA 0x00, and its effect on the registers gives no
response of its own (R71). -/
theorem exec_hostCommand_data_zero {i : Instr} (s : State) (h : i.isHostCommand = true)
    (hi : ∀ x, i ≠ .rdBtn x) :
    ∃ (u : State) (st : Status), exec i s = .next (u.respond st 0) ∧ u.rsps = s.rsps := by
  cases i <;> try cases h
  case rdBtn x => exact absurd rfl (hi x)
  case start x =>
    cases hr : s.run
    · exact ⟨_, _, execStart_stopped x hr, rfl⟩
    · exact ⟨_, _, execStart_running x hr, rfl⟩
  all_goals exact ⟨_, _, rfl, rfl⟩

/-- A response word is its two fields (R71). -/
theorem rspWord_fields_toNat (st : Status) (rd : Byte) :
    (rspWord st rd).toNat =
      (rspStatus (rspWord st rd)).toNat * 256 + (rspData (rspWord st rd)).toNat := by
  rw [rspStatus_rspWord, rspData_rspWord, rspWord_toNat]

/-! ## A placed command word -/

/-- The opcode-table word of a command is placed as that command (log 3, log 7). -/
theorem withFetchWord_cmd (s : State) (w : CmdWord) :
    s.withFetchWord 16 w.toNat = s.place (.cmd w) := by
  have hw : selectorOfNat (formatOfBits 16) w.toNat = .ok (.cmd w) := by
    rw [formatOfBits, if_neg (by decide), selectorOfNat, if_pos w.isLt, BitVec.ofNat_toNat,
      BitVec.setWidth_eq]
  simp only [State.withFetchWord, State.placeTableWord, hw]

/-- The step of a state with a command placed executes that command. -/
theorem step_place_cmd (s : State) (w : CmdWord) :
    step (s.place (.cmd w)) = exec (decode (.cmd w)) { s with cmd := some w } := by
  have hin : (s.place (.cmd w)).inputs = .execute :: s.inputs := rfl
  obtain ⟨hnext, htake⟩ := nextMove_of_decided hin (.inr fun _ h => Move.noConfusion h)
  rw [step_eq, hnext, htake]
  rfl

/-! ## The statements -/

/-- Settles O2: each row's opcode, or value of PHASE, decodes to that row. -/
theorem decodeAfterEncodeIsIdentity : Obligations.DecodeAfterEncodeIsIdentity :=
  fun _ h => decode_encode h

/-- Settles O3: by the two formats, a command word being its two fields. -/
theorem encodeAfterDecodeIsIdentity : Obligations.EncodeAfterDecodeIsIdentity := by
  intro x
  cases x with
  | cmd w => rw [decode_cmd, encode_decodeFields, cmdWord_fields]
  | seq p rx => exact encode_decodePhase p rx

/-- Settles O4: the word's value is that of its fields, and each clause is the decoder at its opcode. -/
theorem decodingFollowsTheOpcodeMap : Obligations.DecodingFollowsTheOpcodeMap := by
  intro w
  have hval : w.toNat = (opcOf w).toNat * 256 + (dataOf w).toNat := by
    rw [← cmdWord_toNat, cmdWord_fields]
  rw [decode_cmd]
  refine ⟨hval, fun k hk => ?_, ?_, ?_, ?_, ?_, ?_, ?_, ?_, fun h4 h7 => ?reserved⟩
  · have hopc : opcOf w = segOpc k := BitVec.eq_of_toNat_eq (hk.trans (segOpc_toNat k).symm)
    rw [hopc, decodeFields_segOpc]
  case reserved => exact decodeFields_reserved4to7 ((isReserved4to7_iff _).mpr ⟨h4, h7⟩) _
  all_goals
    intro hopc
    rw [hopc]
    rfl

/-- Settles O12: RD_BTN apart, every command answers with RDATA 0x00. -/
theorem eachCommandGivesOneResponse : Obligations.EachCommandGivesOneResponse := by
  intro i s h
  by_cases hi : ∃ x, i = .rdBtn x
  · obtain ⟨x, rfl⟩ := hi
    exact ⟨_, _, exec_rdBtn x s, rfl, rfl, rspWord_fields_toNat _ _,
      fun _ => ⟨rspData_rspWord _ _, rspStatus_rspWord _ _⟩, fun hx => absurd rfl (hx x)⟩
  · have hne : ∀ x, i ≠ .rdBtn x := fun x hx => hi ⟨x, hx⟩
    obtain ⟨u, st, hu, hrsps⟩ := exec_hostCommand_data_zero s h hne
    exact ⟨_, _, hu, by rw [State.respond_rsps, hrsps], rfl, rspWord_fields_toNat _ _,
      fun hx => absurd hx hi, fun _ => rspData_rspWord _ _⟩

/-- Settles O53: the words are those of the opcode and the byte of each command. -/
theorem assembledLinesDecode : Obligations.AssembledLinesDecode := by
  intro table
  refine ⟨rfl, rfl, rfl, rfl, fun d => ⟨cmdWord 0x2 d, ?_, ?_⟩,
    fun k d => ⟨cmdWord (segOpc k) d, ?_, ?_⟩, fun k d hk => ?_⟩
  · rw [assemble, wrLedWord_toNat, Option.map_some]
  · rw [decode_cmdWord]
    rfl
  · rw [assemble, wrSegWord_toNat, Option.map_some]
  · rw [decode_cmdWord, decodeFields_segOpc]
  · rw [assemble, wrSegWord_of_gt hk, Option.map_none]

/-- Settles O1: closed words, evaluated. -/
theorem sampleWordsDecodeAsListed : Obligations.SampleWordsDecodeAsListed := by
  unfold Obligations.SampleWordsDecodeAsListed
  decide

/-- Settles O38: the word is placed as its command, and the execution comes next. -/
theorem placedCommandRunsNext : Obligations.PlacedCommandRunsNext := by
  intro s w
  rw [withFetchWord_cmd, step_place_cmd]

end Machine

end Sys2Proof

/-! PROOFS. The family 40_segment_encoder: the encoder by whether the code has a glyph, and the value of a
pattern with and without the decimal point. -/

namespace Sys2Proof.Machine

/-! ## The glyph of a code -/

/-- The 15 supported codes and their glyphs (R101, R102). -/
def glyphCodes : List (Byte × Glyph) :=
  [(0x30, .d0), (0x31, .d1), (0x32, .d2), (0x33, .d3), (0x34, .d4), (0x35, .d5), (0x36, .d6),
    (0x37, .d7), (0x38, .d8), (0x39, .d9), (0x48, .capH), (0x45, .capE), (0x4C, .capL),
    (0x72, .smallR), (0x6F, .smallO)]

theorem glyphOf_of_mem_glyphCodes {g : Byte} {gl : Glyph} (h : (g, gl) ∈ glyphCodes) :
    glyphOf g = some gl :=
  (by decide : ∀ p ∈ glyphCodes, glyphOf p.1 = some p.2) (g, gl) h

/-- Any other code has no glyph (R104). -/
theorem glyphOf_of_notMem_glyphCodes {g : Byte} (h : g ∉ glyphCodes.map Prod.fst) :
    glyphOf g = none := by
  simp only [glyphCodes, List.map_cons, List.map_nil, List.mem_cons, List.not_mem_nil, or_false,
    not_or] at h
  simp only [glyphOf, h, if_false]

/-- "clear" is a marker and no glyph (R101). -/
theorem ne_clearCode_of_glyphOf {g : Byte} {gl : Glyph} (h : glyphOf g = some gl) :
    g ≠ clearCode := by
  rintro rfl
  cases h

/-! ## The result of the encoder -/

section
variable (table : Glyph → BitVec 7)

@[simp] theorem encodeGlyphWith_clearCode (dp : Bool) : encodeGlyphWith table clearCode dp = 0x00 :=
  if_pos rfl

/-- The fallback of a code without a glyph (R104). -/
theorem encodeGlyphWith_of_none {g : Byte} (h : glyphOf g = none) (dp : Bool) :
    encodeGlyphWith table g dp = 0x00 := by
  simp only [encodeGlyphWith, h, ite_self]

theorem encodeGlyphWith_of_some {g : Byte} {gl : Glyph} (h : glyphOf g = some gl) (dp : Bool) :
    encodeGlyphWith table g dp = if dp then glyphBase table gl ||| 0x80 else glyphBase table gl := by
  simp only [encodeGlyphWith, if_neg (ne_clearCode_of_glyphOf h), h]

/-- Bit 7 of an entry is clear, so the byte has the value of the pattern (R106). -/
@[simp] theorem glyphBase_toNat (gl : Glyph) : (glyphBase table gl).toNat = (table gl).toNat :=
  (BitVec.toNat_append 0#1 (table gl)).trans (by simp)

/-- The decimal point is bit 7, which no entry has, so it adds 128 (R102, R106). -/
theorem glyphBase_or_decimalPoint_toNat (gl : Glyph) :
    (glyphBase table gl ||| 0x80).toNat = 128 + (table gl).toNat := by
  calc (glyphBase table gl ||| 0x80).toNat = 2 ^ 7 * 1 ||| (table gl).toNat := by
        rw [BitVec.toNat_or, glyphBase_toNat, Nat.or_comm]
        rfl
    _ = 128 + (table gl).toNat := (Nat.two_pow_add_eq_or_of_lt (table gl).isLt 1).symm

/-- The value of a supported code: its pattern, with bit 7 for the decimal point (R102). -/
theorem encodeGlyphWith_toNat_of_some {g : Byte} {gl : Glyph} (h : glyphOf g = some gl) (dp : Bool) :
    (encodeGlyphWith table g dp).toNat = (if dp then 128 else 0) + (table gl).toNat := by
  rw [encodeGlyphWith_of_some table h]
  cases dp with
  | false => exact (glyphBase_toNat table gl).trans (Nat.zero_add _).symm
  | true => exact glyphBase_or_decimalPoint_toNat table gl

end

/-! ## The statements -/

/-- Settles O50: by "clear", a code without a glyph, and a code with one. -/
theorem segmentEncoderResult : Obligations.SegmentEncoderResult := by
  intro table g dp
  refine ⟨?clear, fun hg => ?unsupported, fun gl hg => ?supported⟩
  case clear =>
    rintro rfl
    exact encodeGlyphWith_clearCode table dp
  case unsupported => exact encodeGlyphWith_of_none table (glyphOf_of_notMem_glyphCodes hg) dp
  case supported => exact encodeGlyphWith_toNat_of_some table (glyphOf_of_mem_glyphCodes hg) dp

/-- Settles O51: "clear" is blank under every table, so under GLYPH_TABLE. -/
theorem clearIsAlwaysBlank : Obligations.ClearIsAlwaysBlank :=
  ⟨encodeGlyphWith_clearCode Config.glyphTable false, encodeGlyphWith_clearCode Config.glyphTable true⟩

end Sys2Proof.Machine

/-! PROOFS. The family 41_sequencer: what a completion does while a transfer is in flight, how far a sweep has
come after any number of completions, and the statements about the sequencer's actions. -/

namespace Sys2Proof.Machine

/-! ## CS in the hardware's states -/

/-- In a hardware state CS is 1 outside phase 6 (R37). -/
theorem State.Inv.cs_of_ne_six {s : State} (hi : s.Inv) (h : s.phase ≠ 6) : s.cs = true := by
  obtain ⟨-, hcs, -⟩ := hi
  exact Bool.eq_true_of_not_eq_false (mt hcs.mp h)

/-- In a hardware state CS is 0 in phase 6 (R37). -/
theorem State.Inv.cs_of_six {s : State} (hi : s.Inv) (h : s.phase = 6) : s.cs = false := by
  obtain ⟨-, hcs, -⟩ := hi
  exact hcs.mpr h

/-! ## A sequencer step -/

/-- A sequencer step in a phase given by name (R122). -/
theorem seqStep_of_phase {action : State → State} {s : State} {p : PhaseVal} (hp : s.phase = p)
    (h7 : p ≠ 7) : seqStep action s = .next ((action s).setPhase (nextPhase p)) := by
  subst hp
  exact seqStep_of_legal h7

/-! ## The state after a completion -/

/-- The state after a completion that answers: the wire event, then the action PHASE selects (R122, R154). -/
def State.afterCompletion (s : State) (rx : Byte) : State :=
  (s.emit ⟨s.cs, s.txd, rx⟩).afterAction rx

@[simp] theorem State.afterCompletion_led (s : State) (rx : Byte) :
    (s.afterCompletion rx).led = s.led := rfl
@[simp] theorem State.afterCompletion_seg (s : State) (rx : Byte) :
    (s.afterCompletion rx).seg = s.seg := rfl
@[simp] theorem State.afterCompletion_phase (s : State) (rx : Byte) :
    (s.afterCompletion rx).phase = nextPhase s.phase := rfl
@[simp] theorem State.afterCompletion_run (s : State) (rx : Byte) :
    (s.afterCompletion rx).run = s.run := rfl
@[simp] theorem State.afterCompletion_txd (s : State) (rx : Byte) :
    (s.afterCompletion rx).txd = queuedByte s s.phase.toNat := rfl
@[simp] theorem State.afterCompletion_wire (s : State) (rx : Byte) :
    (s.afterCompletion rx).wire = s.wire ++ [⟨s.cs, s.txd, rx⟩] := rfl

/-- The completion of phase 0 stores the received byte in BTN (R123). -/
theorem State.afterCompletion_btn_of_zero {s : State} (h : s.phase = 0) (rx : Byte) :
    (s.afterCompletion rx).btn = rx :=
  State.afterAction_btn_of_zero h rx
/-- Outside phase 0 no completion writes BTN (R36). -/
theorem State.afterCompletion_btn_of_ne {s : State} (h : s.phase ≠ 0) (rx : Byte) :
    (s.afterCompletion rx).btn = s.btn :=
  State.afterAction_btn_of_ne h rx
/-- The completion of phase 5 deasserts CS (R128). -/
theorem State.afterCompletion_cs_of_five {s : State} (h : s.phase = 5) (rx : Byte) :
    (s.afterCompletion rx).cs = false :=
  State.afterAction_cs_of_five h rx
/-- The completion of phase 6 asserts CS (R129). -/
theorem State.afterCompletion_cs_of_six {s : State} (h : s.phase = 6) (rx : Byte) :
    (s.afterCompletion rx).cs = true :=
  State.afterAction_cs_of_six h rx
/-- Outside the phases 5 and 6 no completion writes CS (R155). -/
theorem State.afterCompletion_cs_of_ne {s : State} (h5 : s.phase ≠ 5) (h6 : s.phase ≠ 6) (rx : Byte) :
    (s.afterCompletion rx).cs = s.cs :=
  State.afterAction_cs_of_ne h5 h6 rx

/-- The completion of a phase queues the byte of that phase (R123 to R129). -/
theorem State.afterCompletion_txd_of_phase {s : State} {p : PhaseVal} (h : s.phase = p) (rx : Byte) :
    (s.afterCompletion rx).txd = queuedByte s p.toNat := by
  rw [State.afterCompletion_txd, h]

/-- Outside phase 0 the received byte has no effect on the action (R131). -/
theorem State.afterAction_congr_of_ne_zero {s : State} (h : s.phase ≠ 0) (rx rx' : Byte) :
    s.afterAction rx = s.afterAction rx' := by
  simp only [State.afterAction, if_neg h]

/-- Outside phase 0 the received byte has no effect on a completion but in its wire event (R131). -/
theorem State.afterCompletion_congr_of_ne_zero {s : State} (h : s.phase ≠ 0) (rx rx' : Byte) :
    { s.afterCompletion rx' with wire := (s.afterCompletion rx).wire } = s.afterCompletion rx :=
  congrArg (fun t : State => { t with wire := (s.afterCompletion rx).wire })
    (State.afterAction_congr_of_ne_zero (s := s.emit ⟨s.cs, s.txd, rx'⟩) h rx' rx)

/-- While a transfer is in flight it is the byte TXD at the level CS (R35). -/
theorem State.inFlight_of_running {s : State} (h : s.run = true) : s.inFlight = some ⟨s.cs, s.txd⟩ :=
  if_pos h

/-! ## The completion as a move -/

/-- With RUN = 1 a completion runs the action PHASE selects after the wire event (R154). -/
theorem applyMove_complete_running {s : State} (hr : s.run = true) (rx : Byte) :
    applyMove (.complete rx) s = exec (decodePhase s.phase rx) (s.emit ⟨s.cs, s.txd, rx⟩) :=
  if_pos hr

/-- With RUN = 0 a completion changes nothing (R158; log 14). -/
theorem applyMove_complete_stopped {s : State} (hr : s.run = false) (rx : Byte) :
    applyMove (.complete rx) s = .next s :=
  if_neg (Bool.not_eq_true _ ▸ hr)

/-- With RUN = 1 and PHASE legal a completion answers, with `afterCompletion`. -/
theorem applyMove_complete_of_legal {s : State} (hr : s.run = true) (h7 : s.phase ≠ 7) (rx : Byte) :
    applyMove (.complete rx) s = .next (s.afterCompletion rx) :=
  (applyMove_complete_running hr rx).trans
    (exec_decodePhase_of_legal rx (s := s.emit ⟨s.cs, s.txd, rx⟩) h7)

/-! ## The sweep -/

/-- `t` is `n` completions on from PHASE = 0, with LED and SEG as in `s`. -/
structure State.InSweep (s : State) (n : Nat) (t : State) : Prop where
  run : t.run = true
  phase : t.phase.toNat = n % 7
  seg : t.seg = s.seg
  led : t.led = s.led

/-- A running state at PHASE = 0 begins a sweep. -/
theorem State.inSweep_zero {s : State} (hr : s.run = true) (h0 : s.phase = 0) : s.InSweep 0 s :=
  ⟨hr, by rw [h0]; rfl, rfl, rfl⟩

/-- The byte a phase queues is read from LED and SEG alone. -/
theorem queuedByte_congr {s t : State} (hseg : t.seg = s.seg) (hled : t.led = s.led) (p : Nat) :
    queuedByte t p = queuedByte s p := by
  simp only [queuedByte, hseg, hled]

namespace State.InSweep

variable {s t : State} {n : Nat}

/-- PHASE in a sweep, against one of its values: the number of completions modulo 7. -/
theorem phase_eq_iff (h : s.InSweep n t) (p : PhaseVal) : t.phase = p ↔ n % 7 = p.toNat := by
  rw [← h.phase, BitVec.toNat_inj]

theorem phase_ne_seven (h : s.InSweep n t) : t.phase ≠ 7 := fun h7 =>
  absurd ((h.phase_eq_iff 7).mp h7) (Nat.mod_lt n (by decide)).ne

/-- In a sweep every completion answers. -/
theorem applyMove_complete (h : s.InSweep n t) (rx : Byte) :
    applyMove (.complete rx) t = .next (t.afterCompletion rx) :=
  applyMove_complete_of_legal h.run h.phase_ne_seven rx

/-- A completion brings the sweep on by one (R122). -/
theorem next (h : s.InSweep n t) (rx : Byte) : s.InSweep (n + 1) (t.afterCompletion rx) where
  run := h.run
  phase := by
    rw [State.afterCompletion_phase, nextPhase_toNat, h.phase, Nat.mod_add_mod]
  seg := h.seg
  led := h.led

/-- A completion in a sweep queues the byte of its index (R135). -/
theorem afterCompletion_txd (h : s.InSweep n t) (rx : Byte) :
    (t.afterCompletion rx).txd = queuedByte s (n % 7) := by
  rw [State.afterCompletion_txd, h.phase, queuedByte_congr h.seg h.led]

/-- Only the first completion of a sweep writes BTN (R36). -/
theorem afterCompletion_btn (h : s.InSweep n t) (hn : n % 7 ≠ 0) (rx : Byte) :
    (t.afterCompletion rx).btn = t.btn :=
  State.afterCompletion_btn_of_ne (mt (h.phase_eq_iff 0).mp hn) rx

/-- Any number of completions answers, and brings the sweep on by as many (R134). -/
theorem runMoves_complete (rxs : List Byte) {n : Nat} {t : State} (h : s.InSweep n t) :
    ∃ u, runMoves (rxs.map Move.complete) t = .next u ∧ s.InSweep (n + rxs.length) u := by
  induction rxs generalizing n t with
  | nil => exact ⟨t, rfl, h⟩
  | cons rx rxs ih =>
    obtain ⟨u, hu, hsweep⟩ := ih (h.next rx)
    refine ⟨u, ?_, ?_⟩
    · rw [List.map_cons, runMoves, h.applyMove_complete rx]
      exact hu
    · rwa [List.length_cons, Nat.add_comm rxs.length 1, ← Nat.add_assoc]

end State.InSweep

/-! ## The statements -/

/-- Settles O20: a host command leaves PHASE, and an action of the sequencer advances it modulo 7. -/
theorem phaseSevenIsTheModelFault : Obligations.PhaseSevenIsTheModelFault := by
  refine ⟨fun rx s => ⟨rfl, rfl, fun hr h7 => ?_⟩, fun i s t h7 ht => ?_⟩
  · rw [applyMove_complete_running hr, h7]
    rfl
  · cases hi : i.isHostCommand with
    | true =>
      obtain ⟨u, hu, hphase, -⟩ := hostCommandFrame i s hi
      cases hu.symm.trans ht
      rwa [hphase]
    | false =>
      obtain ⟨-, u, b, rfl, -⟩ := exec_sequencer hi ht
      exact nextPhase_ne_seven s.phase

/-- Settles O22: with RUN = 0 nothing happens, and with RUN = 1 the action does not read the byte. -/
theorem receivedByteIsIgnoredInPhasesOneToSix : Obligations.ReceivedByteIsIgnoredInPhasesOneToSix := by
  intro s rx rx' h0 h7
  cases hr : s.run with
  | false =>
    exact ⟨s, s, applyMove_complete_stopped hr rx, applyMove_complete_stopped hr rx', rfl⟩
  | true =>
    exact ⟨_, _, applyMove_complete_of_legal hr h7 rx, applyMove_complete_of_legal hr h7 rx',
      State.afterCompletion_congr_of_ne_zero h0 rx rx'⟩

/-- Settles O23: by the sweep after any number of completions. -/
theorem phaseCountsCompletionsModuloSeven : Obligations.PhaseCountsCompletionsModuloSeven := by
  intro rxs s hr h0
  obtain ⟨t, ht, hsweep⟩ := State.InSweep.runMoves_complete rxs (State.inSweep_zero hr h0)
  exact ⟨t, ht, by rw [hsweep.phase, Nat.zero_add]⟩

/-- Settles O24: each completion queues the byte of its index, and only the first writes BTN. -/
theorem sweepQueuesTheFrameThenLedTwice : Obligations.SweepQueuesTheFrameThenLedTwice := by
  intro s a b c d e f g hr h0
  have w0 := State.inSweep_zero hr h0
  have w1 := w0.next a
  have w2 := w1.next b
  have w3 := w2.next c
  have w4 := w3.next d
  have w5 := w4.next e
  have w6 := w5.next f
  have w7 := w6.next g
  refine ⟨_, _, _, _, _, _, _,
    w0.applyMove_complete a, w0.afterCompletion_txd a, w1.applyMove_complete b, w1.afterCompletion_txd b,
    w2.applyMove_complete c, w2.afterCompletion_txd c, w3.applyMove_complete d, w3.afterCompletion_txd d,
    w4.applyMove_complete e, w4.afterCompletion_txd e, w5.applyMove_complete f, w5.afterCompletion_txd f,
    w6.applyMove_complete g, w6.afterCompletion_txd g, ?btn, (w7.phase_eq_iff 0).mpr rfl⟩
  rw [w6.afterCompletion_btn (by decide), w5.afterCompletion_btn (by decide),
    w4.afterCompletion_btn (by decide), w3.afterCompletion_btn (by decide),
    w2.afterCompletion_btn (by decide), w1.afterCompletion_btn (by decide),
    State.afterCompletion_btn_of_zero h0]

/-- Settles O25: the index of a step modulo 7 is the PHASE it finds. -/
theorem framingRepeatsEverySweep : Obligations.FramingRepeatsEverySweep := by
  intro rxs rx s hr h0
  obtain ⟨t, ht, hsweep⟩ := State.InSweep.runMoves_complete rxs (State.inSweep_zero hr h0)
  rw [Nat.zero_add] at hsweep
  refine ⟨t, _, ht, hsweep.applyMove_complete rx, fun h5 => ?_, fun h6 => ?_, fun hlt => ?_⟩
  · exact State.afterCompletion_cs_of_five ((hsweep.phase_eq_iff 5).mpr h5) rx
  · exact State.afterCompletion_cs_of_six ((hsweep.phase_eq_iff 6).mpr h6) rx
  · have h5 : t.phase ≠ 5 := mt (hsweep.phase_eq_iff 5).mp hlt.ne
    have h6 : t.phase ≠ 6 := mt (hsweep.phase_eq_iff 6).mp (Nat.lt_succ_of_lt hlt).ne
    exact State.afterCompletion_cs_of_ne h5 h6 rx

/-- Settles O49: PH5 queues LED as it is before the WR_LED, and PH6 the byte written. -/
theorem ledIsSampledTwicePerSweep : Obligations.LedIsSampledTwicePerSweep := by
  intro s a b d hr h5
  let t := s.afterCompletion a
  let u := (t.setLed d).respond .ok 0
  have hs7 : s.phase ≠ 7 := by rw [h5]; decide
  have hu6 : u.phase = 6 := (nextPhase_eq_six_iff s.phase).mpr h5
  have hu7 : u.phase ≠ 7 := nextPhase_ne_seven s.phase
  have hucs : u.cs = false := State.afterCompletion_cs_of_five h5 a
  have hutxd : u.txd = s.led := State.afterCompletion_txd_of_phase h5 a
  have hvtxd : (u.afterCompletion b).txd = d := State.afterCompletion_txd_of_phase hu6 b
  refine ⟨t, u, u.afterCompletion b, applyMove_complete_of_legal hr hs7 a, rfl,
    applyMove_complete_of_legal (s := u) hr hu7 b, ?wire, ?inFlight⟩
  case wire =>
    calc (u.afterCompletion b).wire
      _ = (s.wire ++ [⟨s.cs, s.txd, a⟩]) ++ [⟨u.cs, u.txd, b⟩] := rfl
      _ = s.wire ++ [⟨s.cs, s.txd, a⟩, ⟨false, s.led, b⟩] := by
        rw [hucs, hutxd, List.append_assoc, List.singleton_append]
  case inFlight =>
    rw [State.inFlight_of_running (s := u.afterCompletion b) hr, State.afterCompletion_cs_of_six hu6,
      hvtxd]

/-- Settles O16: the action of phase 0, and PHASE after it. -/
theorem phaseZeroLatchesButtonsAndQueuesDigitZero :
    Obligations.PhaseZeroLatchesButtonsAndQueuesDigitZero := by
  refine fun rx s => ⟨rfl, fun h => ?_⟩
  rw [exec, execPh0, seqStep_of_phase h (by decide)]
  rfl

/-- Settles O17: the actions of the phases 1 to 4, and PHASE after each. -/
theorem phasesOneToFourQueueTheirDigits : Obligations.PhasesOneToFourQueueTheirDigits := by
  refine fun rx s => ⟨⟨rfl, rfl, rfl, rfl⟩, fun h => ?_, fun h => ?_, fun h => ?_, fun h => ?_⟩
  all_goals
    simp only [exec, execPh1, execPh2, execPh3, execPh4, seqStep_of_phase h (by decide)]
    rfl

/-- Settles O18: the action of phase 5; by the invariant CS was 1 there. -/
theorem phaseFiveEndsTheSweep : Obligations.PhaseFiveEndsTheSweep := by
  refine fun rx s => ⟨rfl, fun h => ⟨_, ?_, rfl, fun hr => State.inFlight_of_running hr,
    fun hi => hi.cs_of_ne_six (by rw [h]; decide)⟩⟩
  rw [exec, execPh5, seqStep_of_phase h (by decide)]
  rfl

/-- Settles O19: the action of phase 6; by the invariant CS was 0 there. -/
theorem phaseSixStartsTheNextSweep : Obligations.PhaseSixStartsTheNextSweep := by
  refine fun rx s => ⟨rfl, fun h => ⟨_, ?_, rfl, fun hr => State.inFlight_of_running hr,
    fun hi => hi.cs_of_six h⟩⟩
  rw [exec, execPh6, seqStep_of_phase h (by decide)]
  rfl

/-- Settles O32: the completion is the move that happens, and it is taken off the inputs. -/
theorem stepRunsTheActionPhaseSelects : Obligations.StepRunsTheActionPhaseSelects := by
  intro s rx rest hr hin
  obtain ⟨hnext, htake⟩ := nextMove_of_decided hin (.inr fun _ h => Move.noConfusion h)
  rw [step_eq, hnext, htake]
  exact applyMove_complete_running (s := { s with inputs := rest }) hr rx

end Sys2Proof.Machine

/-! PROOFS. The family 42_bus_driver: the transfer in flight under each move, the wire of a sweep, the levels of
the wire events whatever the host does, the end of every transfer, and the order of the bits. -/

namespace Sys2Proof.Machine

/-! ## PHASE in the hardware's states -/

theorem State.Inv.phase_ne_seven {s : State} (hi : s.Inv) : s.phase ≠ 7 := by
  obtain ⟨h7, -, -⟩ := hi
  exact h7

/-- Before START PHASE is 0 (R38). -/
theorem State.Inv.phase_of_stopped {s : State} (hi : s.Inv) (hr : s.run = false) : s.phase = 0 := by
  obtain ⟨-, -, hphase⟩ := hi
  exact hphase hr

/-! ## Which moves answer -/

/-- Where PHASE is legal every move answers: no command and no event is refused (R186, R211). -/
theorem applyMove_answers (m : Move) {s : State} (h7 : s.phase ≠ 7) :
    ∃ t, applyMove m s = .next t := by
  cases m with
  | idle => exact ⟨_, rfl⟩
  | rst => exact ⟨_, rfl⟩
  | host w => exact ⟨_, rfl⟩
  | execute =>
    simp only [applyMove, executeCmd]
    split
    next w _ =>
      obtain ⟨u, st, rd, hu, -⟩ := exec_hostCommand _ s (decodeCmd_isHostCommand w)
      exact ⟨_, hu⟩
    next => exact ⟨_, rfl⟩
  | complete rx =>
    cases hr : s.run with
    | false => exact ⟨_, applyMove_complete_stopped hr rx⟩
    | true => exact ⟨_, applyMove_complete_of_legal hr h7 rx⟩

/-- Where PHASE is legal the step answers. -/
theorem step_answers {s : State} (h7 : s.phase ≠ 7) : ∃ t, step s = .next t :=
  applyMove_answers s.nextMove (by rwa [State.takeMove_phase])

/-- A transfer is in flight in running states alone, and it is the byte TXD at the level CS (R35). -/
theorem State.inFlight_eq_some_iff {s : State} {fl : InFlight} :
    s.inFlight = some fl ↔ s.run = true ∧ fl = ⟨s.cs, s.txd⟩ := by
  cases hr : s.run with
  | false => simp [State.inFlight, hr]
  | true => simp [State.inFlight, hr, eq_comm]

/-- A step that completes the transfer in flight: the wire event, then the action PHASE selects (R154). -/
theorem eq_afterCompletion_of_step {s t : State} {rx : Byte} (hr : s.run = true)
    (hm : s.nextMove = .complete rx) (h : step s = .next t) : t = s.takeMove.afterCompletion rx := by
  rw [step_eq, hm, applyMove_complete_running (by rwa [State.takeMove_run])] at h
  exact (exec_decodePhase_spec (s := s.takeMove.emit _) h).2

/-- A step that completes the transfer in flight emits its event (R154). -/
theorem wire_of_completion_step {s t : State} {rx : Byte} (hr : s.run = true)
    (hm : s.nextMove = .complete rx) (h : step s = .next t) :
    t.wire = s.wire ++ [⟨s.cs, s.txd, rx⟩] := by
  simp [eq_afterCompletion_of_step hr hm h]

/-! ## The moves that leave the transfer in flight -/

/-- The moves that can end a transfer: the reset and the completion (R162). -/
def endsTransfer (m : Move) : Bool := isRst m || isComplete m

theorem isRst_iff {m : Move} : isRst m = true ↔ m = .rst := by
  cases m <;> simp [isRst]

theorem isComplete_iff {m : Move} : isComplete m = true ↔ ∃ rx, m = .complete rx := by
  cases m <;> simp [isComplete]

theorem endsTransfer_iff {m : Move} :
    endsTransfer m = true ↔ m = .rst ∨ ∃ rx, m = .complete rx := by
  rw [endsTransfer, Bool.or_eq_true, isRst_iff, isComplete_iff]

/-- The transfer in flight in `s`, if any, is the one in flight in `t`, in the same phase and with no wire event
in between. -/
structure State.SameTransfer (s t : State) : Prop where
  run : t.run = s.run
  phase : t.phase = s.phase
  cs : t.cs = s.cs
  txd : t.txd = s.txd
  wire : t.wire = s.wire

namespace State.SameTransfer

variable {s t u : State}

theorem refl (s : State) : s.SameTransfer s := ⟨rfl, rfl, rfl, rfl, rfl⟩

theorem trans (h : s.SameTransfer t) (h' : t.SameTransfer u) : s.SameTransfer u :=
  ⟨h'.run.trans h.run, h'.phase.trans h.phase, h'.cs.trans h.cs, h'.txd.trans h.txd,
    h'.wire.trans h.wire⟩

theorem inv (h : s.SameTransfer t) (hi : s.Inv) : t.Inv := by
  simpa only [State.Inv, h.phase, h.cs, h.run] using hi

theorem inFlight (h : s.SameTransfer t) : t.inFlight = s.inFlight := by
  simp only [State.inFlight, h.run, h.cs, h.txd]

end State.SameTransfer

theorem sameTransfer_draw (s : State) : s.SameTransfer s.draw := by
  constructor <;> simp

theorem sameTransfer_takeMove (s : State) : s.SameTransfer s.takeMove := by
  constructor <;> simp

/-- No move writes the environment's inputs. -/
theorem MoveEffect.inputs_eq {m : Move} {s t : State} (h : MoveEffect m s t) : t.inputs = s.inputs := by
  cases h with
  | quiet ht | reset _ ht | writeLed _ _ _ ht | writeSeg _ _ _ ht | start _ _ _ _ ht
  | complete _ _ ht => simp [ht]

/-- While a transfer is in flight no move but the reset and the completion touches it: a START is rejected,
and the other commands write LED or SEG (R153, R155). -/
theorem MoveEffect.sameTransfer {m : Move} {s t : State} (h : MoveEffect m s t) (hr : s.run = true)
    (hm : endsTransfer m = false) : s.SameTransfer t := by
  cases h with
  | quiet ht => exact ht ▸ ⟨rfl, rfl, rfl, rfl, rfl⟩
  | reset hm' ht => simp [hm', endsTransfer, isRst] at hm
  | writeLed _ _ _ ht => exact ht ▸ ⟨rfl, rfl, rfl, rfl, rfl⟩
  | writeSeg _ _ _ ht => exact ht ▸ ⟨rfl, rfl, rfl, rfl, rfl⟩
  | start _ _ _ hr' _ => exact Bool.noConfusion (hr.symm.trans hr')
  | complete hm' _ ht => simp [hm', endsTransfer, isComplete] at hm

/-- A step whose move is neither the reset nor the completion keeps the transfer in flight. -/
theorem sameTransfer_of_step {s t : State} (hr : s.run = true) (hm : endsTransfer s.nextMove = false)
    (h : step s = .next t) : s.SameTransfer t :=
  (sameTransfer_takeMove s).trans
    ((moveEffect_of_step h).sameTransfer (by rwa [State.takeMove_run]) hm)

/-! ## The wire of a sweep -/

/-- In a hardware state `n` completions on from PHASE = 0, CS is the level of transfer `n` (R37, R159). -/
theorem State.Inv.cs_eq_wireCs {s : State} {n : Nat} (hi : s.Inv) (h : s.phase.toNat = n % 7) :
    s.cs = wireCs n := by
  have hn : s.phase = 6 ↔ n % 7 = 6 := by
    rw [← h, ← BitVec.toNat_inj]
    rfl
  by_cases h6 : s.phase = 6
  · simp [hi.cs_of_six h6, wireCs, hn.mp h6]
  · simp [hi.cs_of_ne_six h6, wireCs, mt hn.mpr h6]

/-- A completion keeps the invariant (R28, R37, R38). -/
theorem State.Inv.afterCompletion {s : State} (hi : s.Inv) (hr : s.run = true) (rx : Byte) :
    (s.afterCompletion rx).Inv := by
  have he : (s.emit ⟨s.cs, s.txd, rx⟩).Inv := hi
  exact he.afterAction hr rx

/-- After the kick-off transfer the bytes are those the sweep queues (R159). -/
theorem wireByte_succ (s : State) (n : Nat) : wireByte s (n + 1) = queuedByte s (n % 7) :=
  if_neg (Nat.succ_ne_zero n)

/-- The completions of a sweep put on the wire what R159 lists, from any transfer on. -/
theorem State.InSweep.runMoves_wire {s : State} (rxs : List Byte) {n : Nat} {t : State}
    (h : s.InSweep n t) (hi : t.Inv) (htxd : t.txd = wireByte s n) :
    ∃ u, runMoves (rxs.map Move.complete) t = .next u ∧ u.wire = t.wire ++ wireView s n rxs := by
  induction rxs generalizing n t with
  | nil => exact ⟨t, rfl, (List.append_nil t.wire).symm⟩
  | cons rx rxs ih =>
    have hnext : (t.afterCompletion rx).txd = wireByte s (n + 1) :=
      (h.afterCompletion_txd rx).trans (wireByte_succ s n).symm
    obtain ⟨u, hu, hwire⟩ := ih (h.next rx) (hi.afterCompletion h.run rx) hnext
    refine ⟨u, ?_, ?_⟩
    · rw [List.map_cons, runMoves, h.applyMove_complete rx]
      exact hu
    · rw [hwire, State.afterCompletion_wire, hi.cs_eq_wireCs h.phase, htxd, List.append_assoc]
      rfl

/-! ## The levels of the wire events, whatever the host does -/

/-- A running hardware state, `n` completions on from PHASE = 0. -/
structure State.Framed (s : State) (n : Nat) : Prop where
  inv : s.Inv
  run : s.run = true
  phase : s.phase.toNat = n % 7

/-- `t` is `c` completions on from `s`, and their events have the levels of the transfers from `n` on. -/
structure State.Frames (s : State) (n c : Nat) (t : State) : Prop where
  framed : t.Framed (n + c)
  wire : ∃ evs, t.wire = s.wire ++ evs ∧ evs.map WireEvent.cs = (List.range' n c).map wireCs

/-- The events of two stretches of a run are those of the first, then those of the second. -/
theorem State.Frames.trans {s t u : State} {n c d : Nat} (h : s.Frames n c t)
    (h' : t.Frames (n + c) d u) : s.Frames n (c + d) u := by
  obtain ⟨evs, hw, hcs⟩ := h.wire
  obtain ⟨evs', hw', hcs'⟩ := h'.wire
  refine ⟨Nat.add_assoc n c d ▸ h'.framed, evs ++ evs', ?_, ?_⟩
  · rw [hw', hw, List.append_assoc]
  · rw [List.map_append, hcs, hcs', ← List.map_append, List.range'_append_1]

namespace State.Framed

variable {s t : State} {n : Nat}

/-- Where nothing is emitted the frame is where it was. -/
theorem frames_of_sameTransfer (h : s.Framed n) (ht : s.SameTransfer t) : s.Frames n 0 t where
  framed := ⟨ht.inv h.inv, ht.run.trans h.run, ht.phase ▸ h.phase⟩
  wire := ⟨[], by rw [ht.wire, List.append_nil], rfl⟩

/-- A completion emits one event, at the level of its index (R154, R159). -/
theorem frames_afterCompletion (h : s.Framed n) (rx : Byte) :
    s.Frames n 1 (s.afterCompletion rx) where
  framed :=
    ⟨h.inv.afterCompletion h.run rx, h.run, by
      rw [State.afterCompletion_phase, nextPhase_toNat, h.phase, Nat.mod_add_mod]⟩
  wire := ⟨_, State.afterCompletion_wire s rx, by simp [h.inv.cs_eq_wireCs h.phase]⟩

/-- Every move but the reset brings the frame on by its completion, if it is one (R161, R186). -/
theorem applyMove_frames (h : s.Framed n) {m : Move} (hm : isRst m = false) :
    ∃ t, applyMove m s = .next t ∧ s.Frames n (completions [m]) t := by
  have h7 := h.inv.phase_ne_seven
  cases hc : isComplete m with
  | true =>
    obtain ⟨rx, rfl⟩ := isComplete_iff.mp hc
    exact ⟨_, applyMove_complete_of_legal h.run h7 rx, h.frames_afterCompletion rx⟩
  | false =>
    have hend : endsTransfer m = false := by simp [endsTransfer, hm, hc]
    have hzero : completions [m] = 0 := by simp [completions, hc]
    obtain ⟨t, ht⟩ := applyMove_answers m h7
    rw [hzero]
    exact ⟨t, ht, h.frames_of_sameTransfer ((moveEffect_of_next ht).sameTransfer h.run hend)⟩

/-- Every order of moves without a reset brings the frame on by its completions (R161, R186). -/
theorem runMoves_frames (ms : List Move) {n : Nat} {s : State} (h : s.Framed n)
    (hms : ∀ m ∈ ms, isRst m = false) :
    ∃ t, runMoves ms s = .next t ∧ s.Frames n (completions ms) t := by
  induction ms generalizing n s with
  | nil => exact ⟨s, rfl, h.frames_of_sameTransfer (.refl s)⟩
  | cons m ms ih =>
    obtain ⟨hm, hrest⟩ := List.forall_mem_cons.mp hms
    obtain ⟨t, ht, hst⟩ := h.applyMove_frames hm
    obtain ⟨u, hu, htu⟩ := ih hst.framed hrest
    have hcount : completions (m :: ms) = completions [m] + completions ms :=
      List.countP_append (l₁ := [m])
    refine ⟨u, ?_, hcount ▸ hst.trans htu⟩
    rw [runMoves, ht]
    exact hu

end State.Framed

/-! ## The end of every transfer -/

theorem stepN_one {s t : State} (h : step s = .next t) : stepN 1 s = .next t := by
  simp only [stepN, h]

/-- Steps run one after another. -/
theorem stepN_trans {j k : Nat} {s t u : State} (hj : stepN j s = .next t)
    (hk : stepN k t = .next u) : stepN (j + k) s = .next u := by
  induction j generalizing s with
  | zero =>
    cases hj
    rwa [Nat.zero_add]
  | succ j ih =>
    rw [Nat.succ_add]
    simp only [stepN] at hj ⊢
    split at hj
    next v _ => exact ih hj
    all_goals cases hj

/-- A host that offers a command while one is outstanding waits (R180). -/
theorem hostWaits_of_outstanding {s : State} {v w : CmdWord} {rest : List Move}
    (hin : s.inputs = .host w :: rest) (hc : s.cmd = some v) : s.hostWaits = true := by
  simp [State.hostWaits, State.offered, State.draw_of_decided hin, hin, State.cmdReady, hc]

/-- The step of a waiting host answers the outstanding command (R180). -/
theorem step_of_outstanding {s : State} {v w : CmdWord} {rest : List Move}
    (hin : s.inputs = .host w :: rest) (hc : s.cmd = some v) :
    ∃ t, step s = .next t ∧ t.cmd = none := by
  obtain ⟨hnext, htake⟩ := nextMove_of_waiting (hostWaits_of_outstanding hin hc)
  obtain ⟨u, st, rd, hu, -⟩ := exec_hostCommand _ s (decodeCmd_isHostCommand v)
  refine ⟨u.respond st rd, ?_, rfl⟩
  rw [step_eq, hnext, htake, State.draw_of_decided hin]
  simp only [applyMove, executeCmd, hc]
  exact hu

section
variable {s : State} {m : Move} {rest : List Move} (hi : s.Inv) (hr : s.run = true)
include hi hr

/-- A step keeps the transfer in flight and takes its move off the inputs, where that move is neither the reset
nor the completion and has not to wait. -/
theorem step_takes_input (hin : s.inputs = m :: rest) (hm : endsTransfer m = false)
    (hready : s.cmd = none ∨ ∀ w, m ≠ .host w) :
    ∃ u, step s = .next u ∧ s.SameTransfer u ∧ u.inputs = rest := by
  obtain ⟨hnext, htake⟩ := nextMove_of_decided hin hready
  obtain ⟨u, hu⟩ := step_answers hi.phase_ne_seven
  refine ⟨u, hu, sameTransfer_of_step hr (hnext ▸ hm) hu, ?_⟩
  rw [(moveEffect_of_step hu).inputs_eq, htake]

/-- Within two steps a decided move that ends no transfer is taken off the inputs: a host that must wait needs
one step more (R180). -/
theorem stepN_takes_input (hin : s.inputs = m :: rest) (hm : endsTransfer m = false) :
    ∃ k ≤ 2, ∃ u, stepN k s = .next u ∧ s.SameTransfer u ∧ u.inputs = rest := by
  by_cases hready : s.cmd = none ∨ ∀ w, m ≠ .host w
  · obtain ⟨u, hu, hsu, hrest⟩ := step_takes_input hi hr hin hm hready
    exact ⟨1, by decide, u, stepN_one hu, hsu, hrest⟩
  · obtain ⟨⟨v, hv⟩, w, rfl⟩ : (∃ v, s.cmd = some v) ∧ ∃ w, m = .host w := by
      simpa [Option.ne_none_iff_exists'] using hready
    obtain ⟨hnext, htake⟩ := nextMove_of_waiting (hostWaits_of_outstanding hin hv)
    obtain ⟨t, ht, hnone⟩ := step_of_outstanding hin hv
    have hst : s.SameTransfer t := sameTransfer_of_step hr (hnext ▸ rfl) ht
    have htin : t.inputs = .host w :: rest := by
      rw [(moveEffect_of_step ht).inputs_eq, htake, State.draw_of_decided hin, hin]
    obtain ⟨u, hu, htu, hrest⟩ :=
      step_takes_input (hst.inv hi) (hst.run.trans hr) htin hm (.inl hnone)
    exact ⟨2, le_rfl, u, stepN_trans (stepN_one ht) (stepN_one hu), hst.trans htu, hrest⟩

end

/-- Within two steps for each of the decided moves `pre` either all of them are taken off the inputs, or one of
them that can end the transfer comes next; until then the transfer stays in flight. -/
theorem stepN_takes_inputs (pre : List Move) {rest : List Move} {s : State} (hi : s.Inv)
    (hr : s.run = true) (hin : s.inputs = pre ++ rest) :
    ∃ k ≤ 2 * pre.length, ∃ u, stepN k s = .next u ∧ s.SameTransfer u ∧
      (u.inputs = rest ∨ u.nextMove ∈ pre ∧ endsTransfer u.nextMove = true) := by
  induction pre generalizing s with
  | nil => exact ⟨0, Nat.zero_le _, s, rfl, .refl s, .inl hin⟩
  | cons m pre ih =>
    cases hm : endsTransfer m with
    | true =>
      have hhost : ∀ w, m ≠ .host w := by
        rintro w rfl
        cases hm
      obtain ⟨hnext, -⟩ := nextMove_of_decided hin (.inr hhost)
      exact ⟨0, Nat.zero_le _, s, rfl, .refl s,
        .inr ⟨hnext ▸ List.mem_cons_self, hnext ▸ hm⟩⟩
    | false =>
      obtain ⟨j, hj, t, hjt, hst, htin⟩ := stepN_takes_input hi hr hin hm
      obtain ⟨k, hk, u, hku, htu, hu⟩ := ih (hst.inv hi) (hst.run.trans hr) htin
      refine ⟨j + k, ?_, u, stepN_trans hjt hku, hst.trans htu,
        hu.imp_right (And.imp_left (List.mem_cons_of_mem m))⟩
      rw [List.length_cons]
      omega

/-- The run from `s` comes to a state in which the transfer in flight in `s` still is, and in which a reset or
its completion comes next. -/
def State.ReachesEnd (s : State) : Prop :=
  ∃ k u, stepN k s = .next u ∧ s.SameTransfer u ∧ endsTransfer u.nextMove = true

namespace State.ReachesEnd

theorem of_stepN {k : Nat} {s t : State} (hk : stepN k s = .next t) (hst : s.SameTransfer t)
    (h : t.ReachesEnd) : s.ReachesEnd := by
  obtain ⟨j, u, hj, htu, hu⟩ := h
  exact ⟨k + j, u, stepN_trans hk hj, hst.trans htu, hu⟩

/-- That the stretch is drawn beforehand makes no difference (log 2). -/
theorem of_draw {s : State} (h : s.draw.ReachesEnd) : s.ReachesEnd := by
  obtain ⟨k, u, hk, hsu, hu⟩ := h
  cases k with
  | zero =>
    cases hk
    exact ⟨0, s, rfl, .refl s, by rwa [State.draw_nextMove] at hu⟩
  | succ k =>
    refine ⟨k + 1, u, ?_, (sameTransfer_draw s).trans hsu, hu⟩
    simpa only [stepN, step_draw] using hk

/-- A decided completion is reached, unless another end of the transfer is before it. -/
theorem of_decided {s : State} (hi : s.Inv) (hr : s.run = true) {pre rest : List Move} {rx : Byte}
    (hin : s.inputs = pre ++ .complete rx :: rest) : s.ReachesEnd := by
  obtain ⟨k, -, u, hk, hsu, hu | ⟨-, hend⟩⟩ := stepN_takes_inputs pre hi hr hin
  · obtain ⟨hnext, -⟩ := nextMove_of_decided hu (.inr fun _ h => Move.noConfusion h)
    exact ⟨k, u, hk, hsu, hnext ▸ rfl⟩
  · exact ⟨k, u, hk, hsu, hend⟩

/-- With no input decided the free stretch is, and it ends in a completion (R162; log 13). -/
theorem of_undecided {s : State} (hi : s.Inv) (hr : s.run = true) (hin : s.inputs = []) :
    s.ReachesEnd := by
  have hdraw : s.draw.inputs =
      (Config.schedule s.drawn).before ++ [.complete (Config.schedule s.drawn).rx] := by
    rw [State.draw_of_undecided hin]
    rfl
  exact of_draw (of_decided ((sameTransfer_draw s).inv hi) ((sameTransfer_draw s).run.trans hr) hdraw)

/-- Every transfer in flight comes to a reset or its completion: among the decided inputs or, when they run
out, in the next free stretch (R162). -/
theorem of_running {s : State} (hi : s.Inv) (hr : s.run = true) : s.ReachesEnd := by
  obtain ⟨k, -, u, hk, hsu, hu | ⟨-, hend⟩⟩ :=
    stepN_takes_inputs s.inputs hi hr (List.append_nil s.inputs).symm
  · exact of_stepN hk hsu (of_undecided (hsu.inv hi) (hsu.run.trans hr) hu)
  · exact ⟨k, u, hk, hsu, hend⟩

end State.ReachesEnd

/-! ## The order of the bits -/

/-- With MSB_FIRST a bit enters at bit 0 and the others move up (R156). -/
theorem getLsbD_shiftIn_msbFirst (acc : Byte) (bit : Bool) {i : Nat} (hi : i < 8) :
    (shiftIn .msbFirst acc bit).getLsbD i = if i = 0 then bit else acc.getLsbD (i - 1) := by
  simp only [shiftIn, BitVec.getLsbD_append, BitVec.getLsbD_extractLsb', BitVec.getLsbD_ofBool]
  interval_cases i <;> simp

/-- With LSB_FIRST a bit enters at bit 7 and the others move down (R156). -/
theorem getLsbD_shiftIn_lsbFirst (acc : Byte) (bit : Bool) {i : Nat} (hi : i < 8) :
    (shiftIn .lsbFirst acc bit).getLsbD i = if i = 7 then bit else acc.getLsbD (i + 1) := by
  simp only [shiftIn, BitVec.getLsbD_append, BitVec.getLsbD_extractLsb', BitVec.getLsbD_ofBool]
  interval_cases i <;> simp [Nat.add_comm]

theorem length_bitsOut (o : BitOrder) (b : Byte) : (bitsOut o b).length = 8 := by
  simp [bitsOut]

/-- The bit on the line in each of the 8 cycles (R156). -/
theorem getElem?_bitsOut (o : BitOrder) (b : Byte) {i : Nat} (hi : i < 8) :
    (bitsOut o b)[i]? = some (b.getLsbD (bitIndex o i)) := by
  simp [bitsOut, hi]

/-- The far end has the byte back once its 8 bits are shifted in (R156). -/
theorem byteIn_bitsOut (o : BitOrder) (b : Byte) : byteIn o (bitsOut o b) = b := by
  apply BitVec.eq_of_getLsbD_eq
  intro i hi
  have hbits : bitsOut o b = [0, 1, 2, 3, 4, 5, 6, 7].map fun j => b.getLsbD (bitIndex o j) := rfl
  rw [byteIn, hbits]
  cases o with
  | msbFirst =>
    interval_cases i <;> simp [getLsbD_shiftIn_msbFirst, bitIndex, -BitVec.getLsbD_eq_getElem]
  | lsbFirst =>
    interval_cases i <;> simp [getLsbD_shiftIn_lsbFirst, bitIndex, -BitVec.getLsbD_eq_getElem]

/-! ## The statements -/

/-- Settles O26: START begins a sweep with LED queued at CS = 1, and its completions follow R159. -/
theorem wireCarriesTheSweepFromStartOn : Obligations.WireCarriesTheSweepFromStartOn := by
  intro x rxs s hi hr
  have hsweep : s.InSweep 0 ((((s.setCs true).queue s.led).setRun).respond .ok 0) :=
    ⟨rfl, congrArg BitVec.toNat (hi.phase_of_stopped hr), rfl, rfl⟩
  obtain ⟨u, hu, hwire⟩ := hsweep.runMoves_wire rxs (hi.started hr) rfl
  exact ⟨_, u, execStart_stopped x hr, hu, hwire⟩

/-- Settles O27: every move but the reset brings the frame on by its completion, if it is one. -/
theorem hostCannotDisturbTheFraming : Obligations.HostCannotDisturbTheFraming := by
  intro ms s hi hr h0 hms
  have hframed : s.Framed 0 := ⟨hi, hr, congrArg BitVec.toNat h0⟩
  obtain ⟨t, ht, ⟨⟨-, -, hphase⟩, evs, hwire, hcs⟩⟩ := hframed.runMoves_frames ms hms
  refine ⟨t, evs, ht, hwire, by simpa using congrArg List.length hcs, fun n e he => ?_, ?_⟩
  · have hn : (evs.map WireEvent.cs)[n]? = some e.cs := by rw [List.getElem?_map, he, Option.map_some]
    rw [hcs, List.getElem?_map, Option.map_eq_some_iff] at hn
    obtain ⟨j, hj, hlevel⟩ := hn
    obtain ⟨_, rfl⟩ := List.getElem?_eq_some_iff.mp hj
    simpa using hlevel.symm
  · rw [hphase, Nat.zero_add]

/-- Settles O29: of the effects of a step only the completion writes the wire. -/
theorem wireOnlyGrowsByTheTransferInFlight : Obligations.WireOnlyGrowsByTheTransferInFlight := by
  intro s t h
  cases moveEffect_of_step h with
  | quiet ht => exact .inl (by simp [ht])
  | reset _ ht => exact .inl (by simp [ht])
  | writeLed _ _ _ ht => exact .inl (by simp [ht])
  | writeSeg _ _ _ ht => exact .inl (by simp [ht])
  | start _ _ _ _ ht => exact .inl (by simp [ht])
  | complete hm hr ht =>
    rw [State.takeMove_run] at hr
    exact .inr ⟨_, _, State.inFlight_of_running hr, hm, wire_of_completion_step hr hm h⟩

/-- Settles O30: the moves before the completion are taken off within two steps each, or one of them is itself
a completion. -/
theorem transferInFlightCompletes : Obligations.TransferInFlightCompletes := by
  intro pre rest rx s hi hr hin hpre
  obtain ⟨k, hk, u, hku, hsu, hu⟩ := stepN_takes_inputs pre hi hr hin
  have hnext : ∃ rx', u.nextMove = .complete rx' := by
    rcases hu with hu | ⟨hmem, hend⟩
    · exact ⟨rx, (nextMove_of_decided hu (.inr fun _ h => Move.noConfusion h)).1⟩
    · rcases endsTransfer_iff.mp hend with hrst | hcomplete
      · exact absurd (hpre _ hmem) (by simp [hrst, isRst])
      · exact hcomplete
  obtain ⟨rx', hrx'⟩ := hnext
  obtain ⟨t, ht⟩ := step_answers (hsu.inv hi).phase_ne_seven
  refine ⟨k + 1, t, Nat.succ_le_succ hk, stepN_trans hku (stepN_one ht), ?_⟩
  simp [wire_of_completion_step (hsu.run.trans hr) hrx' ht, hsu.wire]

/-- Settles O52: by the bit each shift brings in, and where the others go. -/
theorem bitOrderRoundTrip : Obligations.BitOrderRoundTrip :=
  fun b => ⟨fun o => byteIn_bitsOut o b, fun o => length_bitsOut o b,
    fun _ hi => getElem?_bitsOut .msbFirst b hi, fun _ hi => getElem?_bitsOut .lsbFirst b hi⟩

/-- Settles O54: by the reset, the completion, and the moves that keep the transfer. -/
theorem onlyResetAbandonsATransfer : Obligations.OnlyResetAbandonsATransfer := by
  intro s t fl hfl h
  obtain ⟨hr, rfl⟩ := State.inFlight_eq_some_iff.mp hfl
  refine ⟨fun hm => ?reset, fun rx hm => ⟨wire_of_completion_step hr hm h, ?complete⟩,
    fun hrst hcomplete => ?other⟩
  case reset =>
    rw [step_eq, hm] at h
    cases h
    exact ⟨rfl, by simp⟩
  case complete =>
    apply State.inFlight_of_running
    rw [eq_afterCompletion_of_step hr hm h, State.afterCompletion_run, State.takeMove_run, hr]
  case other =>
    have hend : ¬ endsTransfer s.nextMove = true := by
      rw [endsTransfer_iff]
      rintro (hm | ⟨rx, hm⟩)
      · exact hrst hm
      · exact hcomplete rx hm
    have hst := sameTransfer_of_step hr (Bool.not_eq_true _ ▸ hend) h
    exact ⟨hst.inFlight.trans hfl, hst.wire⟩

/-- Settles O55: the run reaches a reset or the completion with the transfer still in flight, and there the
completion emits its event. -/
theorem everyTransferEndsUnlessReset : Obligations.EveryTransferEndsUnlessReset := by
  intro s fl hi hfl
  obtain ⟨hr, rfl⟩ := State.inFlight_eq_some_iff.mp hfl
  obtain ⟨k, u, hk, hsu, hend⟩ := State.ReachesEnd.of_running hi hr
  refine ⟨k, u, hk, hsu.inFlight.trans hfl, hsu.wire, (endsTransfer_iff.mp hend).imp_right ?_⟩
  rintro ⟨rx, hm⟩
  obtain ⟨t, ht⟩ := step_answers (hsu.inv hi).phase_ne_seven
  refine ⟨rx, t, hm, ht, ?_⟩
  rw [wire_of_completion_step (hsu.run.trans hr) hm ht, hsu.wire, hsu.cs, hsu.txd]

/-- Settles O5: the two cases of RUN; in a stopped hardware state PHASE is 0 and CS is 1. -/
theorem startBeginsTheCycle : Obligations.StartBeginsTheCycle := by
  intro x s
  refine ⟨opcOf_cmdWord 0x1 x, rfl, fun hr => ?stopped, fun hr => execStart_running x hr⟩
  case stopped =>
    refine ⟨_, execStart_stopped x hr, rfl, rfl, fun hi => ?_⟩
    have h0 : s.phase = 0 := hi.phase_of_stopped hr
    exact ⟨(hi.cs_of_stopped hr).symm, h0, fun rx => congrArg (decodePhase · rx) h0⟩

/-- Settles O6: the rejection of START is a response and nothing else. -/
theorem startWhileRunningIsRejected : Obligations.StartWhileRunningIsRejected :=
  fun x _ hr => ⟨_, execStart_running x hr, rfl, ⟨rfl, rfl, rfl, rfl, rfl, rfl, rfl⟩, rfl⟩

/-- Settles O28: the completion with RUN = 1, with RUN = 0, and with PHASE legal. -/
theorem completionEmitsOneWireEvent : Obligations.CompletionEmitsOneWireEvent :=
  fun rx _ => ⟨fun hr => applyMove_complete_running hr rx, fun hr => applyMove_complete_stopped hr rx,
    fun hr h7 => ⟨_, applyMove_complete_of_legal hr h7 rx, rfl, State.inFlight_of_running hr⟩⟩

/-- Settles O34: the completion is the move that happens, it is taken off the inputs, and RUN = 0. -/
theorem nothingCompletesBeforeStart : Obligations.NothingCompletesBeforeStart := by
  intro s rx rest hr hin
  obtain ⟨hnext, htake⟩ := nextMove_of_decided hin (.inr fun _ h => Move.noConfusion h)
  rw [step_eq, hnext, htake]
  exact applyMove_complete_stopped (s := { s with inputs := rest }) hr rx

end Sys2Proof.Machine

/-! PROOFS. The family 43_host_port: the acceptance and the execution of a command, which command is outstanding
after an event, and that LED and each digit keep a written byte until the next write of their own. -/

namespace Sys2Proof.Machine

/-! ## The command port -/

/-- With none outstanding an offered command is accepted (R180). -/
theorem State.acceptCmd_of_none {s : State} (hc : s.cmd = none) (w : CmdWord) :
    s.acceptCmd w = { s with cmd := some w } :=
  if_pos (by rw [State.cmdReady, hc, Option.isNone_none])

/-- While a command is outstanding nothing is accepted (R180). -/
theorem State.acceptCmd_of_some {s : State} {v : CmdWord} (hc : s.cmd = some v) (w : CmdWord) :
    s.acceptCmd w = s :=
  if_neg (by rw [State.cmdReady, hc, Option.isNone_some]; exact Bool.false_ne_true)

/-- An execution is exec of what the outstanding command decodes to (R180). -/
theorem applyMove_execute_of_some {s : State} {w : CmdWord} (hc : s.cmd = some w) :
    applyMove .execute s = exec (decode (.cmd w)) s := by
  simp only [applyMove, executeCmd, hc]

/-- A command outstanding after a move was outstanding before it, or the move presented it (R180). -/
theorem outstanding_of_applyMove {m : Move} {s t : State} {w : CmdWord} (h : applyMove m s = .next t)
    (hw : t.cmd = some w) : s.cmd = some w ∨ m = .host w := by
  rcases applyMove_cases h with rfl | ⟨-, rfl⟩ | ⟨v, hm, rfl⟩ | ⟨v, -, -, he⟩ | ⟨rx, -, -, he⟩
  · exact .inl hw
  · cases hw
  · cases hc : s.cmd with
    | none =>
      rw [State.acceptCmd_of_none hc] at hw
      cases hw
      exact .inr hm
    | some c => exact .inl (by rwa [State.acceptCmd_of_some hc, hc] at hw)
  · obtain ⟨u, st, rd, hu, -⟩ := exec_hostCommand _ s (decodeCmd_isHostCommand v)
    cases hu.symm.trans he
    cases hw
  · obtain ⟨-, rfl⟩ := exec_decodePhase_spec (s := s.emit ⟨s.cs, s.txd, rx⟩) he
    exact .inl hw

/-! ## The words and the meanings of the writes -/

/-- The command word is a `WR_LED` (R73). -/
def writesLed (w : CmdWord) : Bool := opcOf w == 0x2

/-- A word is the one its decoded command encodes to. -/
theorem eq_of_decode {w v : CmdWord} {i : Instr} (hd : decode (.cmd w) = i) (he : encode i = .cmd v) :
    w = v :=
  Selector.cmd.inj ((encodeAfterDecodeIsIdentity (.cmd w)).symm.trans ((congrArg encode hd).trans he))

theorem writesLed_of_decode {w : CmdWord} {d : Byte} (hd : decode (.cmd w) = .wrLed d) :
    writesLed w = true := by
  rw [eq_of_decode hd rfl, writesLed, opcOf_cmdWord, beq_self_eq_true]

theorem encode_segCommand (k : Digit) (d : Byte) :
    encode (segCommand k d) = .cmd (cmdWord (segOpc k) d) := by
  fin_cases k <;> rfl

theorem writesSeg_of_decode {w : CmdWord} {k : Digit} {d : Byte}
    (hd : decode (.cmd w) = segCommand k d) : writesSeg k w = true := by
  rw [eq_of_decode hd (encode_segCommand k d), writesSeg, opcOf_cmdWord, segOpc_toNat,
    beq_self_eq_true]

/-- The five `WR_SEG k` are one operation on the digit (R182). -/
theorem exec_segCommand (k : Digit) (d : Byte) (s : State) :
    exec (segCommand k d) s = .next ((s.setSeg k d).respond .ok 0) := by
  fin_cases k <;> rfl

/-- The byte PHk queues is SEG[k] (R123 to R127). -/
theorem queuedByte_digit (s : State) (k : Digit) : queuedByte s k.val = s.seg.read k := by
  fin_cases k <;> rfl

/-! ## A register keeps its byte until a command that writes it -/

/-- The outstanding command, if any, is none of those `writes` picks out. -/
def State.NotPending (writes : CmdWord → Bool) (s : State) : Prop :=
  ∀ w, s.cmd = some w → writes w = false

/-- With no WR_LED outstanding no move but the reset writes LED (R21). -/
theorem MoveEffect.led_eq {m : Move} {s t : State} (h : MoveEffect m s t) (hm : m ≠ .rst)
    (hp : s.NotPending writesLed) : t.led = s.led := by
  cases h with
  | quiet ht | writeSeg _ _ _ ht | start _ _ _ _ ht | complete _ _ ht => simp [ht]
  | reset hm' _ => exact absurd hm' hm
  | writeLed _ hc hd _ => exact Bool.noConfusion ((hp _ hc).symm.trans (writesLed_of_decode hd))

/-- With no WR_SEG k outstanding no move but the reset writes SEG[k] (R23). -/
theorem MoveEffect.digit_eq {k : Digit} {m : Move} {s t : State} (h : MoveEffect m s t)
    (hm : m ≠ .rst) (hp : s.NotPending (writesSeg k)) : t.seg.read k = s.seg.read k := by
  cases h with
  | quiet ht | writeLed _ _ _ ht | start _ _ _ _ ht | complete _ _ ht => simp [ht]
  | reset hm' _ => exact absurd hm' hm
  | @writeSeg w j d _ _ _ hc hd ht =>
    have hk : k ≠ j := by
      rintro rfl
      exact Bool.noConfusion ((hp w hc).symm.trans (writesSeg_of_decode hd))
    rw [ht, State.respond_seg, State.setSeg_seg, SegFile.read_write_other _ j k d hk]

/-- A run that answers is its first move, then the others. -/
theorem runMoves_cons_inv {m : Move} {ms : List Move} {s u : State}
    (h : runMoves (m :: ms) s = .next u) :
    ∃ t, applyMove m s = .next t ∧ runMoves ms t = .next u := by
  unfold runMoves at h
  split at h
  next t ht => exact ⟨t, ht, h⟩
  all_goals cases h

/-- What the moves leave alone while no command of a kind is outstanding, a run leaves alone in which no such
command is outstanding or presented and no reset comes. -/
theorem runMoves_keeps {writes : CmdWord → Bool} {reg : State → Byte}
    (hreg : ∀ {m s t}, MoveEffect m s t → m ≠ .rst → s.NotPending writes → reg t = reg s)
    {ms : List Move} {s u : State} (hp : s.NotPending writes) (hrst : .rst ∉ ms)
    (hhost : ∀ w, .host w ∈ ms → writes w = false) (h : runMoves ms s = .next u) : reg u = reg s := by
  induction ms generalizing s with
  | nil => cases h; rfl
  | cons m ms ih =>
    obtain ⟨t, ht, hu⟩ := runMoves_cons_inv h
    have hne : m ≠ .rst := fun hm => hrst (hm ▸ List.mem_cons_self)
    have htp : t.NotPending writes := fun w hw =>
      (outstanding_of_applyMove ht hw).elim (hp w) fun hm => hhost w (hm ▸ List.mem_cons_self)
    calc reg u
      _ = reg t := ih htp (fun hm => hrst (List.mem_cons_of_mem m hm))
        (fun w hw => hhost w (List.mem_cons_of_mem m hw)) hu
      _ = reg s := hreg (moveEffect_of_next ht) hne hp

/-- With no command outstanding LED keeps its byte until a reset or a WR_LED (R181). -/
theorem runMoves_led {ms : List Move} {s u : State} (hc : s.cmd = none)
    (hms : ∀ m ∈ ms, isRst m = false ∧ offersLed m = false) (h : runMoves ms s = .next u) :
    u.led = s.led :=
  runMoves_keeps (reg := State.led) MoveEffect.led_eq (by simp [State.NotPending, hc])
    (fun hm => Bool.noConfusion (hms _ hm).1) (fun _ hm => (hms _ hm).2) h

/-- With no command outstanding SEG[k] keeps its byte until a reset or a WR_SEG k (R182). -/
theorem runMoves_digit {k : Digit} {ms : List Move} {s u : State} (hc : s.cmd = none)
    (hms : ∀ m ∈ ms, isRst m = false ∧ offersSeg k m = false) (h : runMoves ms s = .next u) :
    u.seg.read k = s.seg.read k :=
  runMoves_keeps (reg := fun t => t.seg.read k) MoveEffect.digit_eq (by simp [State.NotPending, hc])
    (fun hm => Bool.noConfusion (hms _ hm).1) (fun _ hm => (hms _ hm).2) h

/-! ## The statements -/

/-- Settles O7: LED keeps the byte over the events, and START, PH5 and PH6 queue LED. -/
theorem writeLedStoresTheByte : Obligations.WriteLedStoresTheByte := by
  intro d s
  refine ⟨congrArg Selector.cmd (ofNat_eq_cmdWord 0x2 d).symm, _, rfl, rfl, rfl, fun ms u hms hu => ?_⟩
  have hled : u.led = d := runMoves_led rfl hms hu
  refine ⟨fun hr x => ⟨_, execStart_stopped x hr, hled⟩, fun hr hphase rx => ?_⟩
  rcases hphase with h5 | h6
  · refine ⟨_, applyMove_complete_of_legal hr (by rw [h5]; decide) rx, ?_⟩
    exact (State.afterCompletion_txd_of_phase h5 rx).trans hled
  · refine ⟨_, applyMove_complete_of_legal hr (by rw [h6]; decide) rx, ?_⟩
    exact (State.afterCompletion_txd_of_phase h6 rx).trans hled

/-- Settles O8: SEG[k] keeps the byte over the events, and PHk queues SEG[k]. -/
theorem writeSegStoresTheDigit : Obligations.WriteSegStoresTheDigit := by
  intro k d s
  have hword : 0x800 + k.val * 0x100 + d.toNat = (segOpc k).toNat * 256 + d.toNat := by
    rw [segOpc_toNat]
    omega
  refine ⟨by rw [encode_segCommand, hword, ofNat_eq_cmdWord], _, exec_segCommand k d s,
    SegFile.read_write_same s.seg k d, fun j hj => SegFile.read_write_other s.seg k j d hj, rfl,
    fun ms u hms hu hr hphase rx => ?_⟩
  have hdigit : u.seg.read k = d := (runMoves_digit rfl hms hu).trans (SegFile.read_write_same s.seg k d)
  have h7 : u.phase ≠ 7 := by
    intro h
    have hk : 7 = k.val := by rw [← hphase, h]; rfl
    omega
  refine ⟨_, applyMove_complete_of_legal hr h7 rx, ?_⟩
  rw [State.afterCompletion_txd, hphase, queuedByte_digit, hdigit]

/-- Settles O9: the words of the three opcodes, each executed as the rejection with ERR_DIGIT_RANGE. -/
theorem writeSegOutOfRangeIsRejected : Obligations.WriteSegOutOfRangeIsRejected :=
  fun d _ => ⟨congrArg Selector.cmd (ofNat_eq_cmdWord 0xD d).symm,
    congrArg Selector.cmd (ofNat_eq_cmdWord 0xE d).symm,
    congrArg Selector.cmd (ofNat_eq_cmdWord 0xF d).symm, rfl, rfl, rfl⟩

/-- Settles O10: the response of RD_BTN is the word of OK and BTN, and the response leaves BTN. -/
theorem readButtonsAnswersBtn : Obligations.ReadButtonsAnswersBtn := by
  intro x y s
  have hr : (rspWord .ok s.btn).toNat = s.btn.toNat :=
    (rspWord_toNat .ok s.btn).trans (Nat.zero_add _)
  exact ⟨_, _, exec_rdBtn x s, rfl, hr, _, exec_rdBtn y _, List.append_assoc _ _ _⟩

/-- Settles O11: the reserved opcodes are executed as the rejection with ERR_BAD_OP. -/
theorem reservedOpcodesAreRejected : Obligations.ReservedOpcodesAreRejected :=
  fun _ _ => ⟨rfl, rfl, fun _ => ⟨rfl, rfl⟩⟩

/-- Settles O31: the execution is the move that happens, and it is taken off the inputs. -/
theorem stepExecutesTheOutstandingCommand : Obligations.StepExecutesTheOutstandingCommand := by
  intro s w rest hc hin
  obtain ⟨hnext, htake⟩ := nextMove_of_decided hin (.inr fun _ h => Move.noConfusion h)
  rw [step_eq, hnext, htake]
  exact applyMove_execute_of_some (s := { s with inputs := rest }) hc

/-- Settles O33: with none outstanding the host's move happens, with one outstanding the host waits. -/
theorem commandPortTakesOneCommandAtATime : Obligations.CommandPortTakesOneCommandAtATime := by
  intro s w rest hin
  refine ⟨fun hc => ?ready, fun v hc => ?outstanding⟩
  case ready =>
    obtain ⟨hnext, htake⟩ := nextMove_of_decided hin (.inl hc)
    rw [step_eq, hnext, htake, applyMove]
    exact congrArg Host.Outcome.next (State.acceptCmd_of_none (s := { s with inputs := rest }) hc w)
  case outstanding =>
    obtain ⟨hnext, htake⟩ := nextMove_of_waiting (hostWaits_of_outstanding hin hc)
    rw [step_eq, hnext, htake, State.draw_of_decided hin, applyMove_execute_of_some hc]

end Sys2Proof.Machine

/-! PROOFS. The family 60_exceptions: the status a command answers with, by its opcode; what a rejection leaves
unchanged; and that no step from a hardware state faults. -/

namespace Sys2Proof.Machine

/-! ## The two kinds of response -/

/-- The response a command adds to the record is the word of its status and data (R71). -/
theorem eq_rspWord_of_respond {s u : State} {st : Status} {rd : Byte} {r : RspWord}
    (hu : u.rsps = s.rsps) (h : (u.respond st rd).rsps = s.rsps ++ [r]) : r = rspWord st rd := by
  rw [State.respond_rsps, hu] at h
  exact (List.singleton_inj.mp (List.append_cancel_left h)).symm

/-- A host command answers OK, or it writes no register before its response (R204). -/
theorem exec_hostCommand_ok_or_unchanged (i : Instr) (s : State) (h : i.isHostCommand = true) :
    ∃ u st rd, exec i s = .next (u.respond st rd) ∧ u.rsps = s.rsps ∧ (st = .ok ∨ u = s) := by
  obtain ⟨u, st, rd, hu, heff⟩ := exec_hostCommand i s h
  refine ⟨u, st, rd, hu, ?_⟩
  rcases heff with rfl | ⟨hst, d, rfl⟩ | ⟨hst, k, d, rfl⟩ | ⟨hst, -, rfl⟩
  · exact ⟨rfl, .inr rfl⟩
  all_goals exact ⟨rfl, .inl hst⟩

/-- An action of the sequencer gives no response: a response answers a command (R71). -/
theorem exec_sequencer_rsps {i : Instr} {s t : State} (h : i.isHostCommand = false)
    (ht : exec i s = .next t) : t.rsps = s.rsps := by
  obtain ⟨-, u, b, rfl, heff⟩ := exec_sequencer h ht
  rcases heff with rfl | ⟨rx, -, rfl⟩ | ⟨rx, -, rfl⟩ | ⟨rx, -, rfl⟩ <;> rfl

/-! ## The status by the opcode -/

/-- The status a command of opcode `opc` answers with, RUN being `run` (R201, R202, R203, R205). -/
def statusOfOpc (opc : Opc) (run : Bool) : Status :=
  if opc = 0x0 ∨ isReserved4to7 opc then .errBadOp
  else if 13 ≤ opc.toNat then .errDigitRange
  else if opc = 0x1 ∧ run then .errAlreadyRunning
  else .ok

/-- The command of opcode `opc` gives the response of its status, whatever its DATA. -/
theorem exec_decodeFields_status (opc : Opc) (d : Byte) (s : State) :
    ∃ (u : State) (rd : Byte),
      exec (decodeFields opc d) s = .next (u.respond (statusOfOpc opc s.run) rd) ∧ u.rsps = s.rsps := by
  unfold decodeFields
  split_ifs with h3 h1 h2 hb h0
  · rw [opc_eq_of_bit3 h3]
    generalize digitOf opc = k
    rcases threeBits_cases k with rfl | rfl | rfl | rfl | rfl | rfl | rfl | rfl
    all_goals exact ⟨_, _, rfl, rfl⟩
  · subst h1
    cases hr : s.run with
    | false => exact ⟨_, _, execStart_stopped d hr, rfl⟩
    | true => exact ⟨_, _, execStart_running d hr, rfl⟩
  · subst h2
    exact ⟨_, _, rfl, rfl⟩
  · subst hb
    exact ⟨_, _, rfl, rfl⟩
  · subst h0
    exact ⟨_, _, rfl, rfl⟩
  · have hres := reserved_of_not_other opc (Bool.eq_false_iff.mpr h3) h0 h1 h2 hb
    have hst : statusOfOpc opc s.run = .errBadOp := if_pos (.inr hres)
    rw [hst]
    exact ⟨_, _, rfl, rfl⟩

/-- The code of the status in each range of opcodes (R205). -/
theorem statusCode_statusOfOpc (opc : Opc) (run : Bool) :
    (8 ≤ opc.toNat → opc.toNat ≤ 12 → statusCode (statusOfOpc opc run) = 0) ∧
    (13 ≤ opc.toNat → statusCode (statusOfOpc opc run) = 2) ∧
    (opc = 0x1 → statusCode (statusOfOpc opc run) = if run then 3 else 0) ∧
    (opc = 0x2 ∨ opc = 0x3 → statusCode (statusOfOpc opc run) = 0) ∧
    (opc = 0x0 ∨ (4 ≤ opc.toNat ∧ opc.toNat ≤ 7) → statusCode (statusOfOpc opc run) = 1) := by
  revert opc run
  decide

/-! ## The statements -/

/-- Settles O13: a host command that does not answer OK writes no register, and an action of the sequencer
gives no response. -/
theorem rejectedCommandChangesNothing : Obligations.RejectedCommandChangesNothing := by
  intro i s t r ht hrsps hr
  cases hi : i.isHostCommand with
  | true =>
    obtain ⟨u, st, rd, hu, hursps, hcase⟩ := exec_hostCommand_ok_or_unchanged i s hi
    cases hu.symm.trans ht
    obtain rfl : r = rspWord st rd := eq_rspWord_of_respond hursps hrsps
    rcases hcase with rfl | rfl
    · exact absurd (rspStatus_rspWord .ok rd) hr
    · exact ⟨⟨rfl, rfl, rfl, rfl, rfl, rfl, rfl⟩, rfl, rfl, rfl⟩
  | false =>
    rw [exec_sequencer_rsps hi ht] at hrsps
    exact absurd (List.self_eq_append_right.mp hrsps) (List.cons_ne_nil r [])

/-- Settles O14: the response is that of the status of the opcode. -/
theorem errorIsFixedByTheOpcode : Obligations.ErrorIsFixedByTheOpcode := by
  intro w s
  obtain ⟨u, rd, hu, hursps⟩ := exec_decodeFields_status (opcOf w) (dataOf w) s
  refine ⟨_, rspWord (statusOfOpc (opcOf w) s.run) rd, hu, ?_, ?_⟩
  · rw [State.respond_rsps, hursps]
  · rw [rspStatus_rspWord]
    exact statusCode_statusOfOpc (opcOf w) s.run

/-- Settles O41: PHASE is legal in a hardware state. -/
theorem hardwareStatesNeverFault : Obligations.HardwareStatesNeverFault :=
  fun _ hi => step_answers hi.phase_ne_seven

end Sys2Proof.Machine

/-! PROOFS. The family 70_reset_and_hazards: the step that takes a reset. -/

namespace Sys2Proof.Machine

/-- The reset abandons the transfer in flight (R230). -/
@[simp] theorem State.assertReset_inFlight (s : State) : s.assertReset.inFlight = none := rfl

/-- A reset that is offered next waits for nothing: the step takes it off the inputs and applies it. -/
theorem step_of_rst {s : State} {rest : List Move} (hin : s.inputs = .rst :: rest) :
    step s = .next { s with inputs := rest }.assertReset := by
  obtain ⟨hnext, htake⟩ := nextMove_of_decided hin (.inr fun _ => Move.noConfusion)
  rw [step_eq, hnext, htake]
  rfl

/-- Settles O36: the step is the reset of the state whose inputs are the moves that follow. -/
theorem resetAbandonsEverything : Obligations.ResetAbandonsEverything := by
  intro s rest hin
  refine ⟨_, step_of_rst hin, ?_⟩
  simp

end Sys2Proof.Machine
